-- ==== Sys2Proof/Word.lean ====
section
/-!
DEFINITION. The words of the P16: bytes, fuse words, exchange-RAM words, images and site numbers
(spec/00 section 5).
-/

namespace Sys2Proof

/-- A byte of the exchange RAM or of a link frame. -/
abbrev Byte := BitVec 8

/-- A 16-bit number: a fuse word, a die coordinate, a sequence number. -/
abbrev Half := BitVec 16

/-- A 32-bit word of the exchange RAM or of a register. -/
abbrev Word := BitVec 32

/-- The 192 image positions of a die; bit p is image position p, blown when 1 (spec/00 section 5). -/
abbrev Image := BitVec 192

/-- A site number, 0..15. -/
abbrev Site := Fin 16

/-- A set of sites, bit s for site s. -/
abbrev SiteSet := BitVec 16

end Sys2Proof
end

