-- ==== Sys2Proof/Syntax.lean ====
section
/-!
DEFINITION. The commands of the P16: one constructor per row of spec/opcode_table.json, in the table's order. The table
gives a row no operands; those here are what the row's rule says the event carries (INVENTORY.md, Instructions).
-/

namespace Sys2Proof

/-- The two registers that a REGISTER_WRITE names (R174). -/
inductive ReadOnlyRegister where
  | ident
  | straps
  deriving DecidableEq, Repr

/-- What the latch moment finds outside the touchdown controller (R74): the contact-sense inputs of the sixteen sites, and
the sites `late` that make their lot check after the take (R5). DESIGN CHOICE: which sites these are is given with the command
(notes/assumptions/26.md). -/
structure LatchMoment where
  contactSense : SiteSet
  late : SiteSet
  deriving DecidableEq, Repr

/-- A conversion of the temperature monitor (R117): the sensor's output, and whether a start-up's zeroing of the exchange RAM
was still going on when it was completed (R181). DESIGN CHOICE: the zeroing has no row, so its end is told by the first reading
completed after it (notes/assumptions/31.md). -/
structure Conversion where
  output : Int
  whileZeroing : Bool
  deriving DecidableEq, Repr

/-- One step of the part, whole and indivisible (spec/95). -/
inductive Instr where
  /-- POWER_ON_RESET (R181): the board's straps as sampled. -/
  | powerOnReset (population : BitVec 4) (secretLoad : Bool)
  /-- STARTUP_END (R181). -/
  | startupEnd
  /-- SOFT_RESET (R182): CONTROL.SOFT_RESET written 1. `order` is the order in which the lot controller takes the claims
  and reports that are in flight (R22); sites it does not name follow in ascending order. -/
  | softReset (order : List Site)
  /-- MIRROR_NOW (R178): CONTROL.MIRROR_NOW written 1. -/
  | mirrorNow
  /-- INTERRUPT_ENABLES (R177): CONTROL bits 8..13 written. -/
  | interruptEnables (enables : BitVec 6)
  /-- NOTIFY (R165): any value written to NOTIFY. -/
  | notify (value : Word)
  /-- ATTENTION_WRITE (R176). -/
  | attentionWrite (value : Word)
  /-- REGISTER_WRITE (R174): a write to IDENT or STRAPS. -/
  | registerWrite (register : ReadOnlyRegister) (value : Word)
  /-- HOST_RAM_WRITE (R155): the bytes of one word named by `lanes`, bit k naming byte k of the word. -/
  | hostRamWrite (offset : Word) (lanes : BitVec 4) (value : Word)
  /-- OPEN_LOT (R3): the request unit takes an OPEN_LOT from the slot. -/
  | openLot
  /-- CLOSE_LOT (R18). -/
  | closeLot
  /-- SPOIL_INDEX (R16). -/
  | spoilIndex
  /-- LIST_RESUME (R17). -/
  | listResume
  /-- VALIDATE_PROFILE (R66). -/
  | validateProfile
  /-- LOAD_SECRET (R25). -/
  | loadSecret
  /-- SEAL_SECRET (R28). -/
  | sealSecret
  /-- ABORT_TOUCHDOWN (R82). -/
  | abortTouchdown
  /-- CLEAR_COUNTERS (R153). -/
  | clearCounters
  /-- UNKNOWN (R167): a request code of 0 or above 9. -/
  | unknown
  /-- CONTACT_RISE (R70). -/
  | contactRise
  /-- CONTACT_FALL (R70). -/
  | contactFall
  /-- SETTLE_EXPIRY (R74): the latch moment. -/
  | settleExpiry (moment : LatchMoment)
  /-- SITE_DONE (R80): the touchdown controller takes this site's entry into DONE. -/
  | siteDone (site : Site)
  /-- INTERRUPTION (R110): the channel takes the interruption that was sent to it. -/
  | interruption (site : Site)
  /-- FRESH_CLAIM (R6). -/
  | freshClaim (site : Site)
  /-- RESUME_CLAIM (R10). -/
  | resumeClaim (site : Site)
  /-- HOLD (R9). -/
  | hold (site : Site)
  /-- RELEASE (R11). -/
  | release (site : Site)
  /-- COMMIT (R12). -/
  | commit (site : Site)
  /-- SPOIL (R13). -/
  | spoil (site : Site)
  /-- KEY_REQUEST (R35). -/
  | keyRequest (site : Site)
  /-- KEY_DELIVERY (R34). -/
  | keyDelivery
  /-- KEY_WITHDRAWAL (R36). -/
  | keyWithdrawal (site : Site)
  /-- SLOT_REQUEST (R120). -/
  | slotRequest (site : Site)
  /-- SLOT_WITHDRAWAL (R123). -/
  | slotWithdrawal (site : Site)
  /-- PULSE_END (R125). -/
  | pulseEnd (site : Site)
  /-- PULSE_CUT (R126). -/
  | pulseCut (site : Site)
  /-- TEMPERATURE_READING (R131): the sensor's output in 1/16 degree, before it is limited (R117). -/
  | temperatureReading (conversion : Conversion)
  /-- EXCHANGE_REQUEST (R140). -/
  | exchangeRequest (site : Site)
  /-- RESPONSE_COMPLETE (R141): the bytes that have arrived since the request frame. -/
  | responseComplete (site : Site) (bytes : List Byte)
  /-- RESPONSE_TIMEOUT (R142). -/
  | responseTimeout (site : Site)
  /-- DRAIN_END (R143). -/
  | drainEnd (site : Site)
  /-- MIRROR_INTERVAL_EXPIRY (R178). -/
  | mirrorIntervalExpiry
  /-- MIRROR_COUNTDOWN_ZERO (R178). -/
  | mirrorCountdownZero
  /-- MIRROR_WRITE_END (R178): bit g of `early` says that group g was copied as it stood when the write began, and not
  as it stands now; R179 leaves each group's moment open. -/
  | mirrorWriteEnd (early : BitVec 35)
  /-- SOFT_RESET_END (R182). -/
  | softResetEnd
  deriving DecidableEq, Repr

end Sys2Proof
end

