-- ==== Sys2Proof/Config.lean ====
section
/-!
DEFINITION. What this member of the family fixes: the numbers of its sites, places and groups. The spec leaves no
value of the part open, so no free value stands here; the orders and moments it leaves open are operands of commands
(notes/assumptions/10.md, notes/assumptions/11.md).
-/

namespace Sys2Proof.Config

/-- The size of the exchange RAM in bytes (spec/09 section 9.1). -/
def ramBytes : Nat := 65536

/-- Places of the resume list (R8). -/
def resumePlaces : Nat := 64

/-- Places of the closure list (spec/01 section 1.1). -/
def closurePlaces : Nat := 80

/-- Groups of a mirror write: touchdown controller, lot controller, rail controller, sixteen sites, sixteen ports (R179). -/
def mirrorGroupCount : Nat := 35

/-- All sites in ascending order. -/
def allSites : List Site := [0, 1, 2, 3, 4, 5, 6, 7, 8, 9, 10, 11, 12, 13, 14, 15]

end Sys2Proof.Config
end

