-- ==== Sys2Proof/Machine/State.lean ====
section
/-!
DEFINITION. The state of the P16 as plain data: one record per block (spec/00 section 3), each holding the items that the
block's chapter lists, and the state after power-on reset. Fields marked MODEL are implied by the rules or are the
model's own (INVENTORY.md, State).
-/

namespace Sys2Proof.Machine

/-- Why the part stops. The spec gives the part no fault; this one belongs to the model. -/
inductive Fault where
  /-- Raised by HOST_RAM_WRITE with an offset outside the 64 KiB window, an address the spec says does not exist
  (spec/09 section 9.1). Safe: the machine stops where the hardware is not reached at all. -/
  | outsideExchangeRam (offset : Word)
  deriving DecidableEq, Repr

/-- Why a command has no meaning. -/
inductive Refusal where
  /-- Raised by `exec` for a row that has no meaning yet. No arm raises it. Safe. -/
  | notModelled (mnemonic : String)
  deriving DecidableEq, Repr

/-- The exchange RAM in canonical form: addresses strictly rising, no byte equal to 0, which an unlisted address reads
(R157: power-on reset zeroes the RAM). -/
abbrev Memory := List Host.Cell

/-- The canonical form of the exchange RAM, and its 64 KiB bound. -/
abbrev Memory.wf (m : Memory) : Prop :=
  m.Pairwise (fun a b => a.1 < b.1) ∧ ∀ c ∈ m, c.2 ≠ 0 ∧ c.1 < Config.ramBytes

/-- MODEL. Where the part stands between resets (R181, R182). -/
inductive RunPhase where
  /-- Power-on start-up, zeroing the exchange RAM or waiting for the first reading after that (R181 steps 1 and 2). -/
  | startupWaiting
  /-- Power-on start-up with that reading taken (R181 step 3 is next). -/
  | startupReady
  /-- The start-up has ended and no soft reset is in progress. -/
  | running
  /-- A soft reset is in progress: SOFT_RESET reads 1 (R175). -/
  | softReset
  deriving DecidableEq, Repr

/-- The straps as sampled at power-on reset (R174). -/
structure Straps where
  population : BitVec 4
  secretLoad : Bool
  deriving DecidableEq, Repr

/-- A request that the request unit has accepted and not yet answered (R164). -/
structure Request where
  code : Word
  params : List Word
  sequence : Half
  deriving DecidableEq, Repr

/-- The request unit (R164). -/
structure RequestUnit where
  lastAnswered : Half
  busy : Bool
  pendingNotify : Bool
  inProgress : Option Request
  deriving DecidableEq, Repr

/-- One protected window as read (R61). -/
structure Window where
  enabled : Bool
  first : Half
  last : Half
  deriving DecidableEq, Repr

/-- A product profile with the used value of every field (R58 to R61). -/
structure Profile where
  dieType : Half
  minWords : Nat
  baseWord : Nat
  baseWidth : Nat
  refTemp : Int
  gain : Nat
  draw : Nat
  maxAttempts : Nat
  responseLimit : Nat
  windows : List Window
  deriving DecidableEq, Repr

/-- The lot states (R1). -/
inductive LotState where
  | noLot
  | opened
  | draining
  deriving DecidableEq, Repr

/-- A resume-list entry (spec/01 section 1.1). -/
structure ResumeEntry where
  index : Nat
  waferId : Word
  dieX : Half
  dieY : Half
  count : Nat
  claimedBy : Option Site
  deriving DecidableEq, Repr

/-- The lot controller (spec/01 section 1.1). The lot tag is computed from the number and S is held by the rail
controller (notes/assumptions/20.md). -/
structure LotController where
  state : LotState
  number : Word
  first : Nat
  last : Nat
  profile : Profile
  nextIndex : Nat
  committed : Nat
  spoiled : Nat
  freshBound : Nat
  resumeList : List ResumeEntry
  closureList : List Nat
  deriving DecidableEq, Repr

/-- The secret states (R23). -/
inductive SecretState where
  | absent
  | loaded
  | sealed
  deriving DecidableEq, Repr

/-- The derivation secret M0..M3 (spec/02 section 2.1). -/
structure Secret where
  m0 : Word
  m1 : Word
  m2 : Word
  m3 : Word
  deriving DecidableEq, Repr

/-- The words K0..K3 of a key (R33). -/
structure Key where
  k0 : Word
  k1 : Word
  k2 : Word
  k3 : Word
  deriving DecidableEq, Repr

/-- A key request that waits (R32). -/
structure KeyRequest where
  site : Site
  index : Nat
  deriving DecidableEq, Repr

/-- The key request in progress: the lot number is taken when the computation begins (R32), and a withdrawn one is
computed to its end and discarded (R36). -/
structure KeyJob where
  site : Site
  index : Nat
  lotNumber : Word
  discarded : Bool
  deriving DecidableEq, Repr

/-- The derivation unit (spec/02 section 2.1). -/
structure DerivationUnit where
  secret : Secret
  state : SecretState
  checkValue : Word
  waiting : List KeyRequest
  inProgress : Option KeyJob
  deriving DecidableEq, Repr

/-- The touchdown states (spec/05 section 5.1). -/
inductive TouchdownState where
  | idle
  | settling
  | active
  | waitLift
  deriving DecidableEq, Repr

/-- The reasons for which the working sites of a touchdown were interrupted (spec/05 section 5.1). -/
inductive EndReason where
  | earlyLift
  | aborted
  deriving DecidableEq, Repr

/-- The touchdown controller (spec/05 section 5.1). The settle timer holds its delay in µs while it runs. -/
structure TouchdownController where
  state : TouchdownState
  contactLevel : Bool
  holdoff : Bool
  settleTimer : Option Nat
  number : Word
  takePointer : Fin 2
  activeFrame : Option (Fin 2)
  latchedTemp : Int
  latchedContact : SiteSet
  hostTag : Word
  waferId : Word
  endReason : Option EndReason
  abortPending : Bool
  total : Word
  bounced : Word
  planless : Word
  overlapped : Word
  deriving DecidableEq, Repr

/-- The site states (spec/06 section 6.1). -/
inductive SiteState where
  | idle
  | probe
  | scan
  | bind
  | burn
  | lock
  | check
  | done
  deriving DecidableEq, Repr

/-- The kinds of a bound index (spec/06 section 6.1). -/
inductive IndexKind where
  | fresh
  | resumed
  deriving DecidableEq, Repr

/-- The index a site holds. -/
structure BoundIndex where
  index : Nat
  kind : IndexKind
  deriving DecidableEq, Repr

/-- The reasons of an interruption of a channel (spec/06 section 6.1). -/
inductive InterruptReason where
  | earlyLift
  | aborted
  | link
  deriving DecidableEq, Repr

/-- The spoil causes (R13). -/
inductive SpoilCause where
  | neverBurned
  | bindingCut
  | resumeListFull
  | resumeLimit
  | overblown
  | burnFail
  | dieRefused
  | verifyFail
  | byRequest
  | lotClosed
  | reset
  deriving DecidableEq, Repr

/-- The outcomes of a site (R108). -/
inductive Outcome where
  | provisioned
  | resumed
  | readDone
  | skipped
  | notFitted
  | noContact
  | noLot
  | wrongDie
  | linkFail
  | noIndex
  | lotClosing
  | notBlank
  | lockedDie
  | bindingMismatch
  | overblown
  | dieRefused
  | burnFail
  | verifyFail
  | interrupted
  deriving DecidableEq, Repr

/-- The dispositions (R108). -/
inductive Disposition where
  | none
  | committed
  | spoiled
  | held
  | read
  deriving DecidableEq, Repr

/-- What a channel reports of its index to the lot controller (R107 step 1). -/
inductive Report where
  | commit
  | spoil (cause : SpoilCause)
  | hold
  | release
  deriving DecidableEq, Repr

/-- The margin levels of a read (R136). -/
inductive MarginLevel where
  | normal
  | low
  | high
  deriving DecidableEq, Repr

/-- The requests of the probe link with their parameters (R136). -/
inductive LinkRequest where
  | ident
  | point (address : Half)
  | read (count : Byte) (level : MarginLevel)
  | arm (fuse : Half)
  | disarm
  deriving DecidableEq, Repr

/-- MODEL. What a link exchange of a channel is for: which step of R93 to R106 or R114 it belongs to. -/
inductive LinkTask where
  /-- The IDENT of R93. -/
  | ident
  /-- The POINT and the READ of a READ_ONLY site at NORMAL (R95). -/
  | onlyPoint
  | onlyRead
  /-- The POINT and the READ of the LOW readback for the blank test (R96). -/
  | blankPoint
  | blankRead
  /-- The POINT and the READ of the NORMAL readback for the evaluation (R97). -/
  | evalPoint
  | evalRead
  /-- The ARM of an attempt (R101). -/
  | arm
  /-- The POINT and the READ of a verify read (R103). -/
  | verifyPoint
  | verifyRead
  /-- The POINTs and READs of the final check at LOW and at HIGH (R106). -/
  | lowPoint
  | lowRead
  | highPoint
  | highRead
  /-- The DISARM after an abort (R114). -/
  | disarm
  deriving DecidableEq, Repr

/-- MODEL. What a channel has outstanding with another block. A message that has been sent and not yet taken stands
here until the command that takes it (notes/assumptions/6.md). -/
inductive Activity where
  /-- Nothing outstanding: before the first take, or in DONE with its DONE taken. -/
  | resting
  /-- In PROBE with the lot check still to come; EXCHANGE_REQUEST makes it (R5, R92, notes/assumptions/26.md). -/
  | starting
  /-- The channel names this exchange; EXCHANGE_REQUEST takes it (R140). -/
  | naming (task : LinkTask)
  /-- The port carries this exchange. -/
  | exchanging (task : LinkTask)
  /-- A fresh claim sent; FRESH_CLAIM takes it (R96). -/
  | claimingFresh
  /-- A resume claim sent; RESUME_CLAIM takes it (R97). -/
  | claimingResume
  /-- A key request sent; KEY_REQUEST takes it (R99). -/
  | askingKey
  /-- The key request waits or is computed; KEY_DELIVERY ends it. -/
  | awaitingKey
  /-- The key request is being given back; KEY_WITHDRAWAL takes the withdrawal (R110). -/
  | withdrawingKey
  /-- A slot request sent; SLOT_REQUEST takes it (R102). -/
  | askingSlot
  /-- In the waiting set of the rail controller. -/
  | awaitingSlot
  /-- The slot request is being given back; SLOT_WITHDRAWAL takes the withdrawal (R110). -/
  | withdrawingSlot
  /-- A pulse runs. -/
  | pulsing
  /-- The pulse is to be cut; PULSE_CUT takes the cut (R110). -/
  | cutting
  /-- A report sent to the lot controller; COMMIT, SPOIL, HOLD or RELEASE takes it (R107 step 1). -/
  | reporting (report : Report)
  /-- In DONE; SITE_DONE takes the entry (R107 step 3). -/
  | finished
  deriving DecidableEq, Repr

/-- The figures of a channel (R90); an absent part is none. -/
structure Figures where
  blows : Nat
  pulses : Nat
  rePulses : Nat
  linkRetries : Nat
  failingPosition : Option Nat
  readbackBinding : Option (Nat × Byte)
  imageLocked : Option Bool
  deriving DecidableEq, Repr

/-- A site channel (spec/06 section 6.1). The cursor is the first of `remaining`, which stands in blow order (R47). -/
structure SiteChannel where
  state : SiteState
  action : Word
  dieX : Half
  dieY : Half
  waferId : Word
  contact : Bool
  dieType : Half
  minWords : Nat
  baseWord : Nat
  maxAttempts : Nat
  bound : Option BoundIndex
  pulseGranted : Bool
  target : Option Image
  remaining : List Nat
  attempt : Nat
  dieArmed : Bool
  interruption : Option InterruptReason
  figures : Figures
  /-- MODEL. What is outstanding with another block. -/
  activity : Activity
  /-- MODEL. The interruption the touchdown controller has sent and INTERRUPTION has not yet taken (R79, R82). -/
  interruptSent : Option InterruptReason
  /-- MODEL. The NORMAL readback that the evaluation works on (R97, R98). -/
  readback : Image
  /-- MODEL. The outcome the channel has reached (R107). -/
  outcome : Option Outcome
  /-- MODEL. The report decided at the interruption and made after the DISARM (R114). -/
  owed : Option Report
  /-- The coordinates that the site's result record of each frame carries (R183), as it was written last; none before.
  The layout of the record has no words for them (notes/assumptions/29.md). -/
  recordCoordinates : Vector (Option (Half × Half)) 2
  deriving DecidableEq, Repr

/-- The exchange state and sending phase of a port (spec/08 section 8.3): LISTENING and DRAINING are the two phases of
AWAIT_RESPONSE. -/
inductive PortPhase where
  | idle
  | listening
  | draining
  deriving DecidableEq, Repr

/-- The six link counters, in the order of R151. -/
structure LinkCounters where
  framesSent : Word
  goodResponses : Word
  checkErrors : Word
  timeouts : Word
  dieCheckErrors : Word
  testFrames : Word
  deriving DecidableEq, Repr

/-- A probe link port (spec/08 section 8.3). The response timer holds its limit in µs while it runs. -/
structure LinkPort where
  phase : PortPhase
  exchange : Option LinkRequest
  retryCount : Nat
  pointedAddress : Option Half
  timer : Option Nat
  spacing : Nat
  counters : LinkCounters
  /-- MODEL. The frame listened for was sent as a test frame (R150). -/
  testFrame : Bool
  /-- MODEL. The frame listened for is the POINT of a re-point (R144). -/
  onRePoint : Bool
  /-- MODEL. The last request frame put on the line (R137). -/
  line : List Byte
  deriving DecidableEq, Repr

/-- The programming rail controller (spec/07 section 7.1). A site is in the waiting set when it has a waiting attempt, and
its pulse in flight is held as its width in ticks. -/
structure RailController where
  slotTotal : Nat
  slotsInUse : Nat
  waiting : Vector (Option Nat) 16
  lastGranted : Site
  hold : Bool
  pulses : Vector (Option Nat) 16
  deriving DecidableEq, Repr

/-- The status mirror writer (spec/10 section 10.3). The interval timer holds its interval in ms while it runs. -/
structure MirrorWriter where
  count : Word
  intervalTimer : Option Nat
  countdown : Option Nat
  writing : Bool
  writePending : Bool
  /-- MODEL. How often the countdown has reached 0 without MIRROR_COUNTDOWN_ZERO having taken the trigger (R178,
  notes/assumptions/19.md). -/
  zeroReached : Nat
  /-- MODEL. The groups as they stood when the write in progress began (R179, notes/assumptions/10.md). -/
  snapshot : List (Nat × List Word)
  deriving DecidableEq, Repr

/-- The whole part. -/
structure State where
  ram : Memory
  phase : RunPhase
  straps : Straps
  enables : BitVec 6
  attention : BitVec 6
  requests : RequestUnit
  lot : LotController
  derivation : DerivationUnit
  touchdown : TouchdownController
  channels : Vector SiteChannel 16
  ports : Vector LinkPort 16
  rail : RailController
  /-- The current reading of the temperature monitor (R117). -/
  reading : Int
  mirror : MirrorWriter
  /-- MODEL. The CONTACT input itself; the level last taken is `touchdown.contactLevel` (R70, R88). -/
  contactLine : Bool
  /-- The commands that wait, first in first out. -/
  pending : List Instr
  deriving DecidableEq, Repr

/-- The request unit after power-on reset (R164). -/
def RequestUnit.afterPowerOn : RequestUnit :=
  { lastAnswered := 0, busy := false, pendingNotify := false, inProgress := none }

/-- The all-zero profile copy (R2). -/
def Profile.zero : Profile :=
  { dieType := 0, minWords := 0, baseWord := 0, baseWidth := 0, refTemp := 0, gain := 0, draw := 0, maxAttempts := 0,
    responseLimit := 0, windows := List.replicate 4 { enabled := false, first := 0, last := 0 } }

/-- The lot controller after power-on reset (R2). -/
def LotController.afterPowerOn : LotController :=
  { state := .noLot, number := 0, first := 0, last := 0, profile := Profile.zero, nextIndex := 0, committed := 0,
    spoiled := 0, freshBound := 0, resumeList := [], closureList := [] }

/-- The derivation unit after power-on reset (R24). -/
def DerivationUnit.afterPowerOn : DerivationUnit :=
  { secret := { m0 := 0, m1 := 0, m2 := 0, m3 := 0 }, state := .absent, checkValue := 0, waiting := [], inProgress := none }

/-- The touchdown controller after power-on reset (R69). -/
def TouchdownController.afterPowerOn : TouchdownController :=
  { state := .idle, contactLevel := false, holdoff := false, settleTimer := none, number := 0, takePointer := 0,
    activeFrame := none, latchedTemp := 0, latchedContact := 0, hostTag := 0, waferId := 0, endReason := none,
    abortPending := false, total := 0, bounced := 0, planless := 0, overlapped := 0 }

/-- Cleared figures (R90). -/
def Figures.zero : Figures :=
  { blows := 0, pulses := 0, rePulses := 0, linkRetries := 0, failingPosition := none, readbackBinding := none,
    imageLocked := none }

/-- A site channel after power-on reset (R89). -/
def SiteChannel.afterPowerOn : SiteChannel :=
  { state := .idle, action := 0, dieX := 0, dieY := 0, waferId := 0, contact := false, dieType := 0, minWords := 0,
    baseWord := 0, maxAttempts := 0, bound := none, pulseGranted := false, target := none, remaining := [], attempt := 1,
    dieArmed := false, interruption := none, figures := Figures.zero, activity := .resting, interruptSent := none,
    readback := 0, outcome := none, owed := none, recordCoordinates := Vector.replicate 2 none }

/-- Cleared link counters (R139). -/
def LinkCounters.zero : LinkCounters :=
  { framesSent := 0, goodResponses := 0, checkErrors := 0, timeouts := 0, dieCheckErrors := 0, testFrames := 0 }

/-- A probe link port after power-on reset (R139). -/
def LinkPort.afterPowerOn : LinkPort :=
  { phase := .idle, exchange := none, retryCount := 0, pointedAddress := none, timer := none, spacing := 0,
    counters := LinkCounters.zero, testFrame := false, onRePoint := false, line := [] }

/-- The rail controller after power-on reset (R116). -/
def RailController.afterPowerOn : RailController :=
  { slotTotal := 0, slotsInUse := 0, waiting := Vector.replicate 16 none, lastGranted := 15, hold := false,
    pulses := Vector.replicate 16 none }

/-- The status mirror writer after either reset (R180). -/
def MirrorWriter.afterReset : MirrorWriter :=
  { count := 0, intervalTimer := none, countdown := none, writing := false, writePending := false, zeroReached := 0,
    snapshot := [] }

/-- The part right after power-on reset, in its start-up (R181, R157). DESIGN CHOICE: the straps read 0 and CONTACT is
deasserted, since the spec leaves both to the board (notes/assumptions/1.md, notes/assumptions/15.md). -/
def State.reset : State :=
  { ram := [], phase := .startupWaiting, straps := { population := 0, secretLoad := false }, enables := 0, attention := 0,
    requests := RequestUnit.afterPowerOn, lot := LotController.afterPowerOn, derivation := DerivationUnit.afterPowerOn,
    touchdown := TouchdownController.afterPowerOn, channels := Vector.replicate 16 SiteChannel.afterPowerOn,
    ports := Vector.replicate 16 LinkPort.afterPowerOn, rail := RailController.afterPowerOn, reading := 0,
    mirror := MirrorWriter.afterReset, contactLine := false, pending := [] }

end Sys2Proof.Machine
end

