-- ==== Sys2Proof/Machine/Layout.lean ====
section
/-!
DEFINITION. The offsets of the exchange RAM (spec/09, spec/10 section 10.3) and the codes by which states, causes and
outcomes appear in its words.
-/

namespace Sys2Proof.Machine

/-! Identity block (spec/09 section 9.3). -/

abbrev atSignature : Nat := 0x0000
abbrev atPartCode : Nat := 0x0004
abbrev atRevision : Nat := 0x0008
abbrev atFittedCount : Nat := 0x000C
abbrev atSecretState : Nat := 0x0010
abbrev atCheckValue : Nat := 0x0014
abbrev atLayoutVersion : Nat := 0x0018
/-- Words 0x001C..0x003F of the identity block, written 0. -/
abbrev atIdentityRest : Nat := 0x001C

def readySignature : Word := 0x7A4C5031
def partCode : Word := 0x00005016
def identRegister : Word := 0x00015016

/-! Request slot (spec/09 section 9.5). -/

abbrev atPosted : Nat := 0x0040
abbrev atRequestCode : Nat := 0x0044
abbrev atParams : Nat := 0x0048
abbrev atDetail : Nat := 0x0068
abbrev atResults : Nat := 0x006C
abbrev atAnswer : Nat := 0x007C

/-! Configuration block (spec/09 section 9.2). -/

abbrev atSettleDelay : Nat := 0x0080
abbrev atTripTemp : Nat := 0x0084
abbrev atRailCapacity : Nat := 0x0088
abbrev atMirrorMode : Nat := 0x008C
abbrev atMirrorInterval : Nat := 0x0090
abbrev atLinkSpacing : Nat := 0x0094

/-! Lot descriptor, secret staging, profile table (spec/09 section 9.2). -/

abbrev atLotNumber : Nat := 0x0100
abbrev atLotFirst : Nat := 0x0104
abbrev atLotLast : Nat := 0x0108
abbrev atLotProfile : Nat := 0x010C
abbrev atStaging : Nat := 0x0400
/-- Profile record k (spec/09 section 9.2). -/
abbrev atProfile (k : Nat) : Nat := 0x0800 + 128 * k

/-! Lot summary and resume-list copy (spec/09 section 9.3). -/

abbrev atSummary : Nat := 0x0200
abbrev atResumeCopy : Nat := 0x3000

/-! Plan frames (spec/09 section 9.4). -/

/-- The start of a plan frame. -/
abbrev atFrame (f : Fin 2) : Nat := 0x1000 + 0x1000 * f.val
/-- Plan entry s of a frame. -/
abbrev atPlanEntry (f : Fin 2) (i : Site) : Nat := atFrame f + 0x40 + 16 * i.val
/-- Result record s of a frame. -/
abbrev atRecord (f : Fin 2) (i : Site) : Nat := atFrame f + 0x200 + 64 * i.val

/-! Status mirror (spec/10 section 10.3). -/

abbrev atMirror : Nat := 0x4000
abbrev mirrorBytes : Nat := 0x800

/-! Frame state words (spec/09 section 9.4). -/

def frameEmpty : Word := 0
def frameArmed : Word := 1
def frameActive : Word := 2
def frameDone : Word := 3

/-- The answer codes (spec/09 section 9.5). -/
inductive AnswerCode where
  | none
  | done
  | badState
  | badParameter
  | notHeld
  | inUse
  | strap
  | sequence
  | unknown
  deriving DecidableEq, Repr

def AnswerCode.code : AnswerCode → Word
  | .none => 0
  | .done => 1
  | .badState => 2
  | .badParameter => 3
  | .notHeld => 4
  | .inUse => 5
  | .strap => 6
  | .sequence => 7
  | .unknown => 8

/-- The secret state codes (spec/02 section 2.1). -/
def SecretState.code : SecretState → Word
  | .absent => 0
  | .loaded => 1
  | .sealed => 2

/-- The lot state codes of the mirror (R179). -/
def LotState.code : LotState → Word
  | .noLot => 0
  | .opened => 1
  | .draining => 2

/-- The touchdown state codes (spec/05 section 5.1). -/
def TouchdownState.code : TouchdownState → Word
  | .idle => 0
  | .settling => 1
  | .active => 2
  | .waitLift => 3

/-- The end reason codes, COMPLETE being the absence of a reason (spec/05 section 5.1, R80). -/
def endReasonCode : Option EndReason → Word
  | none => 1
  | some .earlyLift => 2
  | some .aborted => 3

/-- The site state codes (spec/06 section 6.1). -/
def SiteState.code : SiteState → Word
  | .idle => 0
  | .probe => 1
  | .scan => 2
  | .bind => 3
  | .burn => 4
  | .lock => 5
  | .check => 6
  | .done => 7

/-- The spoil cause codes (R13). -/
def SpoilCause.code : SpoilCause → Word
  | .neverBurned => 1
  | .bindingCut => 2
  | .resumeListFull => 3
  | .resumeLimit => 4
  | .overblown => 5
  | .burnFail => 6
  | .dieRefused => 7
  | .verifyFail => 8
  | .byRequest => 9
  | .lotClosed => 10
  | .reset => 11

/-- The outcome codes (R108). -/
def Outcome.code : Outcome → Word
  | .provisioned => 1
  | .resumed => 2
  | .readDone => 3
  | .skipped => 4
  | .notFitted => 5
  | .noContact => 6
  | .noLot => 7
  | .wrongDie => 8
  | .linkFail => 9
  | .noIndex => 10
  | .lotClosing => 11
  | .notBlank => 12
  | .lockedDie => 13
  | .bindingMismatch => 14
  | .overblown => 15
  | .dieRefused => 16
  | .burnFail => 17
  | .verifyFail => 18
  | .interrupted => 19

/-- The disposition codes (R108). -/
def Disposition.code : Disposition → Word
  | .none => 0
  | .committed => 1
  | .spoiled => 2
  | .held => 3
  | .read => 4

/-- The closure reasons of the lot summary (R21). -/
inductive ClosureReason where
  | request
  | reset
  deriving DecidableEq, Repr

def ClosureReason.code : ClosureReason → Word
  | .request => 1
  | .reset => 2

end Sys2Proof.Machine
end

