-- ==== Sys2Proof/Machine/Ops.lean ====
section
/-!
DEFINITION. The named operations over the exchange RAM and over the blocks' records. Every read and write of a word of
the exchange RAM goes through these.
-/

namespace Sys2Proof.Machine

/-! The exchange RAM, byte by byte. -/

/-- One byte of the exchange RAM; an unlisted address reads 0 (R157). -/
def readByte : Memory → Nat → Byte
  | [], _ => 0
  | (k, v) :: m, a => if k = a then v else readByte m a

/-- Put byte `b` at address `a`, keeping the canonical form: 0 is not listed. -/
def insertByte : Memory → Nat → Byte → Memory
  | [], a, b => if b = 0 then [] else [(a, b)]
  | (k, v) :: m, a, b =>
    if a < k then (if b = 0 then (k, v) :: m else (a, b) :: (k, v) :: m)
    else if a = k then (if b = 0 then m else (a, b) :: m)
    else (k, v) :: insertByte m a b

/-- Write one byte. There is no byte beyond the 64 KiB. -/
def writeByte (m : Memory) (a : Nat) (b : Byte) : Memory :=
  if a < Config.ramBytes then insertByte m a b else m

/-- Zero `len` bytes from `base`. -/
def zeroRange (m : Memory) (base len : Nat) : Memory :=
  m.filter fun c => !(decide (base ≤ c.1) && decide (c.1 < base + len))

/-- One 32-bit word, stored little-endian (spec/00 section 5). -/
def readWord (m : Memory) (a : Nat) : Word :=
  readByte m (a + 3) ++ (readByte m (a + 2) ++ (readByte m (a + 1) ++ readByte m a))

/-- Byte `k` of a word, byte 0 the lowest. -/
def byteOf (w : Word) (k : Nat) : Byte := w.extractLsb' (8 * k) 8

/-- Write one word, little-endian (R155: a part access writes a whole word). -/
def writeWord (m : Memory) (a : Nat) (w : Word) : Memory :=
  writeByte (writeByte (writeByte (writeByte m a (byteOf w 0)) (a + 1) (byteOf w 1)) (a + 2) (byteOf w 2)) (a + 3)
    (byteOf w 3)

/-- Write consecutive words in ascending order. -/
def writeWords (m : Memory) (a : Nat) : List Word → Memory
  | [] => m
  | w :: ws => writeWords (writeWord m a w) (a + 4) ws

/-! The exchange RAM of a state. -/

/-- A word of the exchange RAM. -/
def readRam (s : State) (a : Nat) : Word := readWord s.ram a

/-- The part's write of one word. -/
def writeRam (s : State) (a : Nat) (w : Word) : State := { s with ram := writeWord s.ram a w }

/-- The part's write of consecutive words, in ascending order. -/
def writeRamWords (s : State) (a : Nat) (ws : List Word) : State := { s with ram := writeWords s.ram a ws }

/-- The part's zeroing of a region. -/
def zeroRam (s : State) (base len : Nat) : State := { s with ram := zeroRange s.ram base len }

/-! The blocks. -/

/-- The channel of a site. -/
def channelOf (s : State) (i : Site) : SiteChannel := s.channels[i]

/-- Replace the channel of a site. -/
def setChannel (s : State) (i : Site) (c : SiteChannel) : State := { s with channels := s.channels.set i c }

/-- The port of a site. -/
def portOf (s : State) (i : Site) : LinkPort := s.ports[i]

/-- Replace the port of a site. -/
def setPort (s : State) (i : Site) (p : LinkPort) : State := { s with ports := s.ports.set i p }

/-- Replace the lot controller. -/
def setLot (s : State) (l : LotController) : State := { s with lot := l }

/-- Replace the request unit. -/
def setRequests (s : State) (r : RequestUnit) : State := { s with requests := r }

/-- Replace the derivation unit. -/
def setDerivation (s : State) (d : DerivationUnit) : State := { s with derivation := d }

/-- Replace the touchdown controller. -/
def setTouchdown (s : State) (t : TouchdownController) : State := { s with touchdown := t }

/-- Replace the rail controller. -/
def setRail (s : State) (r : RailController) : State := { s with rail := r }

/-- Replace the status mirror writer. -/
def setMirror (s : State) (m : MirrorWriter) : State := { s with mirror := m }

/-- Run an operation for each site of a list, in the list's order. -/
def forSites (sites : List Site) (f : State → Site → State) (s : State) : State := sites.foldl f s

/-- The number N of fitted sites (R174). -/
def fittedCount (s : State) : Nat := s.straps.population.toNat + 1

/-- Every channel is in DONE. -/
def allDone (s : State) : Bool := Config.allSites.all fun i => decide ((channelOf s i).state = .done)

end Sys2Proof.Machine
end

