-- ==== Sys2Proof/Machine/Operands.lean ====
section
/-!
DEFINITION. How operands and fields are read: byte lanes, clamping, saturating counters, bytes taken as 16-bit numbers.
-/

namespace Sys2Proof.Machine

/-- "Clamped to lo..hi" (spec/00 section 5). -/
def clampNat (lo hi x : Nat) : Nat := if x < lo then lo else if hi < x then hi else x

/-- "Clamped to lo..hi" for a signed value (spec/00 section 5). -/
def clampInt (lo hi x : Int) : Int := if x < lo then lo else if hi < x then hi else x

/-- A saturating 32-bit counter increased by 1 (spec/00 section 5). -/
def saturatingInc (w : Word) : Word := if w = BitVec.allOnes 32 then w else w + 1

/-- A signed value as a word of the exchange RAM, sign-extended to 32 bits. -/
def signedWord (t : Int) : Word := BitVec.ofInt 32 t

/-- A count or an index as a word of the exchange RAM. -/
def natWord (n : Nat) : Word := BitVec.ofNat 32 n

/-- The bits of a word that belong to the byte lanes named, lane k being byte k. -/
def laneMask (lanes : BitVec 4) : Word :=
  (if lanes.getLsbD 3 then 0xFF#8 else 0) ++ ((if lanes.getLsbD 2 then 0xFF#8 else 0) ++
    ((if lanes.getLsbD 1 then 0xFF#8 else 0) ++ (if lanes.getLsbD 0 then 0xFF#8 else 0#8)))

/-- The word after a host write that changes only the bytes it names (R155). -/
def mergeLanes (lanes : BitVec 4) (old new : Word) : Word :=
  (old &&& ~~~ laneMask lanes) ||| (new &&& laneMask lanes)

/-- Bytes as 16-bit numbers, low byte first (R136). -/
def halvesOf : List Byte → List Half
  | lo :: hi :: rest => (hi ++ lo) :: halvesOf rest
  | _ => []

/-- A 16-bit number as two bytes, low byte first (R136). -/
def bytesOfHalf (h : Half) : List Byte := [h.extractLsb' 0 8, h.extractLsb' 8 8]

/-- The number whose bit k is the k-th truth value. -/
def bitSum : List Bool → Nat
  | [] => 0
  | b :: bs => b.toNat + 2 * bitSum bs

end Sys2Proof.Machine
end

