-- ==== Sys2Proof/Machine/Key.lean ====
section
/-!
DEFINITION. The key derivation (R33), the check value (R30) and its undoing (R37).
-/

namespace Sys2Proof.Machine

/-- One round of the derivation with its secret word: the five steps of R33 in order, with A = `k0`, B = `k1`, C = `k2`
and D = `k3`. -/
def keyRound (m : Word) (k : Key) : Key :=
  let a := k.k0 + k.k1
  let d := (k.k3 ^^^ a).rotateLeft 8
  let c := k.k2 + d
  let b := (k.k1 ^^^ c).rotateLeft 16
  { k0 := a + m, k1 := b, k2 := c, k3 := d }

/-- The derivation: four rounds from A = lot number, B = index, C = D = 0 (R33). -/
def deriveKey (m : Secret) (lot index : Word) : Key :=
  keyRound m.m3 (keyRound m.m2 (keyRound m.m1 (keyRound m.m0 { k0 := lot, k1 := index, k2 := 0, k3 := 0 })))

/-- The undoing of one round (R37). -/
def undoRound (m : Word) (k : Key) : Key :=
  let a := k.k0 - m
  let b := k.k1.rotateRight 16 ^^^ k.k2
  let c := k.k2 - k.k3
  let d := k.k3.rotateRight 8 ^^^ a
  { k0 := a - b, k1 := b, k2 := c, k3 := d }

/-- The check value: K0 of lot 0, index 0 (R30). -/
def checkValueOf (m : Secret) : Word := (deriveKey m 0 0).k0

/-- The eight key words: 2i is the high half of Ki, 2i + 1 its low half (R34). -/
def keyWords (k : Key) : List Half :=
  [k.k0.extractLsb' 16 16, k.k0.extractLsb' 0 16, k.k1.extractLsb' 16 16, k.k1.extractLsb' 0 16,
   k.k2.extractLsb' 16 16, k.k2.extractLsb' 0 16, k.k3.extractLsb' 16 16, k.k3.extractLsb' 0 16]

/-- Publish the derivation unit's state in the identity block, the check value first (R31). -/
def publishSecretState (s : State) : State :=
  writeRam (writeRam s atCheckValue s.derivation.checkValue) atSecretState s.derivation.state.code

end Sys2Proof.Machine
end

