-- ==== Sys2Proof/Machine/Image.lean ====
section
/-!
DEFINITION. The fuse image: composing a target (R40 to R44), its blow order and remaining set (R46, R47), and the tests on
a readback (R49 to R55).
-/

namespace Sys2Proof.Machine

/-- The number of blown bits among the lowest `n` of a bit vector. -/
def onesBelow {w : Nat} (x : BitVec w) (n : Nat) : Nat := (List.range n).countP fun b => x.getLsbD b

/-- The image whose words 0, 1, ... are given: position p is bit p mod 16 of word p / 16 (spec/00 section 5). -/
def imageOfWords : List Half → Image
  | [] => 0
  | w :: ws => (imageOfWords ws <<< 16) ||| w.setWidth 192

/-- Image word w of an image. -/
def imageWord (x : Image) (w : Nat) : Half := x.extractLsb' (16 * w) 16

/-- The stored form of a key word: complemented when it has 9 ones or more (R43). -/
def storedKeyWord (w : Half) : Half := if 9 ≤ onesBelow w 16 then ~~~ w else w

/-- Whether the polarity fuse of a key word is targeted (R43). -/
def polarityOf (w : Half) : Bool := decide (9 ≤ onesBelow w 16)

/-- The fuses that a key word takes with its polarity fuse (R43). -/
def keyWordBlows (w : Half) : Nat := onesBelow (storedKeyWord w) 16 + (polarityOf w).toNat

/-- The binding data: index bits 0..23, then the lot tag (R40). -/
def bindingData (tag : Byte) (index : BitVec 24) : Word := tag ++ index

/-- The binding check c: the intact binding data fuses (R41). -/
def bindingCheck (tag : Byte) (index : BitVec 24) : Nat := 32 - onesBelow (bindingData tag index) 32

/-- The key check e: the intact fuses of the 136 of the key field (R44). -/
def keyCheck (ws : List Half) : Nat := 136 - (ws.map keyWordBlows).sum

/-- The polarity mask: bit j for key word j (R43). -/
def polarityMask (ws : List Half) : Nat := bitSum (ws.map polarityOf)

/-- The target image of a lot tag, an index and a key (R39 to R44). Word 2 holds the binding check and, at bit 15, the
lock fuse (R42). -/
def composeTarget (tag : Byte) (index : Nat) (k : Key) : Image :=
  let idx : BitVec 24 := BitVec.ofNat 24 index
  let ws := keyWords k
  imageOfWords
    ([idx.extractLsb' 0 16, tag ++ (idx.extractLsb' 16 8 : Byte), 0x8000#16 ||| BitVec.ofNat 16 (bindingCheck tag idx)]
      ++ ws.map storedKeyWord
      ++ [BitVec.ofNat 16 (polarityMask ws) ||| (BitVec.ofNat 16 (keyCheck ws) <<< 8)])

/-- The key check of the key tag, from the target (R45). -/
def keyTagCheck (x : Image) : Byte := x.extractLsb' 184 8

/-- The polarity mask of the key tag, from the target (R45). -/
def keyTagPolarity (x : Image) : Byte := x.extractLsb' 176 8

/-- The lock fuse's position (spec/03 section 3.1). -/
abbrev lockPosition : Nat := 47

/-- The blow order: ascending, the lock fuse after all others (R46). -/
def blowOrder : List Nat := (List.range 192).filter (fun p => p != lockPosition) ++ [lockPosition]

/-- The phase of a position (R46). -/
def phaseOf (p : Nat) : SiteState := if p < 38 then .bind else if p = lockPosition then .lock else .burn

/-- The remaining set of a fresh bind, in blow order (R47). -/
def freshRemaining (target : Image) : List Nat := blowOrder.filter fun p => target.getLsbD p

/-- The remaining set of a resume: targeted positions that read intact (R47). -/
def resumeRemaining (target readback : Image) : List Nat :=
  blowOrder.filter fun p => target.getLsbD p && !readback.getLsbD p

/-- The binding is complete: no position of 0..37 remains (R48). -/
def bindingComplete (remaining : List Nat) : Bool := remaining.all fun p => decide (38 ≤ p)

/-- The lowest blown position of an image. -/
def lowestBlown (x : Image) : Option Nat := (List.range 192).find? fun p => x.getLsbD p

/-- A blank readback (R49). -/
def isBlank (x : Image) : Bool := x == 0

/-- A valid binding: the check reads the number of intact binding data fuses (R50). -/
def validBinding (x : Image) : Bool := (x.extractLsb' 32 6).toNat == 32 - onesBelow x 32

/-- The readback index (R50). -/
def readbackIndex (x : Image) : Nat := (x.extractLsb' 0 24).toNat

/-- The readback tag (R50). -/
def readbackTag (x : Image) : Byte := x.extractLsb' 24 8

/-- The lock test (R55). -/
def isLocked (x : Image) : Bool := x.getLsbD lockPosition

/-- The blown count (R55). -/
def blownCount (x : Image) : Nat := onesBelow x 192

/-- The lowest position that reads blown where the target is intact: the failing position of the overblown test (R54) and
of the LOW part of the final check (R53). -/
def overblownAt (target readback : Image) : Option Nat := lowestBlown (readback &&& ~~~ target)

/-- The lowest targeted position that reads intact: the failing position of the HIGH part of the final check (R53). -/
def underblownAt (target readback : Image) : Option Nat := lowestBlown (target &&& ~~~ readback)

/-- The results of a verify read (R52). -/
inductive VerifyResult where
  | unexpectedBlow (position : Nat)
  | notBlown
  | verified
  deriving DecidableEq, Repr

/-- The test of a verify read of the word that holds cursor position `p`; `after` is the remaining set after `p` (R52). -/
def verifyTest (target : Image) (p : Nat) (after : List Nat) (word : Half) : VerifyResult :=
  let base := p / 16 * 16
  match (List.range 16).find? fun b =>
      word.getLsbD b && (base + b != p) && (!target.getLsbD (base + b) || after.contains (base + b)) with
  | some b => .unexpectedBlow (base + b)
  | none => if word.getLsbD (p % 16) then .verified else .notBlown

end Sys2Proof.Machine
end

