-- ==== Sys2Proof/Machine/Flags.lean ====
section
/-!
DEFINITION. ATTENTION, the interrupt line and what the five registers read (spec/10 sections 10.1, 10.2).
-/

namespace Sys2Proof.Machine

/-- The attention causes (spec/10 section 10.2). -/
inductive AttentionCause where
  | frameDone
  | requestDone
  | noPlan
  | tempHold
  | lotClosed
  | resetDone
  deriving DecidableEq, Repr

/-- The bit of ATTENTION that records a cause (spec/10 section 10.2). -/
def AttentionCause.bit : AttentionCause → Nat
  | .frameDone => 0
  | .requestDone => 1
  | .noPlan => 2
  | .tempHold => 3
  | .lotClosed => 4
  | .resetDone => 5

/-- A block raises a cause: its bit becomes 1 (R176). -/
def raise (s : State) (c : AttentionCause) : State :=
  { s with attention := s.attention ||| BitVec.twoPow 6 c.bit }

/-- A host write of 1 to a bit clears it (R176). -/
def clearAttention (s : State) (value : Word) : State :=
  { s with attention := s.attention &&& ~~~ value.setWidth 6 }

/-- The interrupt line: some bit is set and enabled (R177). -/
def interruptLine (s : State) : Bool := (s.attention &&& s.enables) != 0

/-- What a read of CONTROL returns (R175). -/
def readControl (s : State) : Word :=
  (s.enables.setWidth 32 <<< 8) ||| (if s.phase = .softReset then 1 else 0)

/-- What a read of ATTENTION returns (R176). -/
def readAttention (s : State) : Word := s.attention.setWidth 32

/-- What a read of STRAPS returns (R174). -/
def readStraps (s : State) : Word :=
  s.straps.population.setWidth 32 ||| (if s.straps.secretLoad then 0x100 else 0)

/-- What a read of the register at a byte offset returns; bits not named read 0 (spec/10 section 10.1). -/
def readRegister (s : State) (offset : Nat) : Word :=
  if offset = 0x00 then identRegister
  else if offset = 0x04 then readControl s
  else if offset = 0x0C then readAttention s
  else if offset = 0x10 then readStraps s
  else 0

/-- ATTENTION_WRITE (R176). -/
def execAttentionWrite (value : Word) (s : State) : Host.Outcome State Fault Refusal :=
  .next (clearAttention s value)

/-- INTERRUPT_ENABLES (R177, R175): bits 8..13 of CONTROL hold the value last written. -/
def execInterruptEnables (enables : BitVec 6) (s : State) : Host.Outcome State Fault Refusal :=
  .next { s with enables := enables }

/-- REGISTER_WRITE (R174): a write to IDENT or STRAPS has no effect. -/
def execRegisterWrite (_register : ReadOnlyRegister) (_value : Word) (s : State) : Host.Outcome State Fault Refusal :=
  .next s

/-- HOST_RAM_WRITE (R155): only the named bytes of the word change. Bits 0 and 1 of the offset play no part, since an
access lies within one word; an offset beyond the 64 KiB faults (notes/assumptions/13.md). -/
def execHostRamWrite (offset : Word) (lanes : BitVec 4) (value : Word) (s : State) : Host.Outcome State Fault Refusal :=
  if offset.toNat < Config.ramBytes then
    let a := offset.toNat / 4 * 4
    .next (writeRam s a (mergeLanes lanes (readRam s a) value))
  else .fault (.outsideExchangeRam offset)

end Sys2Proof.Machine
end

