-- ==== Sys2Proof/Machine/Lot.lean ====
section
/-!
DEFINITION. What the lot controller does with each claim and report (R6 to R13), as functions of the lot controller alone,
and the closure and summary of a lot (R20 to R22). Where a rule's event cannot come about (a report of a fresh index with
fresh-bound 0, of a resumed index with no entry), the counts stay as they are (notes/assumptions/16.md).
-/

namespace Sys2Proof.Machine

/-- The lot tag: bits 0..7 of the lot number (R4). -/
def lotTag (l : LotController) : Byte := l.number.setWidth 8

/-- A lot is OPEN or DRAINING. -/
def lotIsOpen (l : LotController) : Bool := decide (l.state ≠ .noLot)

/-- The answers to a fresh claim (R6). -/
inductive FreshAnswer where
  | noIndex
  | lotClosing
  | granted (index : Nat)
  deriving DecidableEq, Repr

/-- The answer to a fresh claim (R6). -/
def freshAnswer (l : LotController) : FreshAnswer :=
  if l.nextIndex = l.last + 1 then .noIndex
  else if l.state = .draining then .lotClosing
  else .granted l.nextIndex

/-- The lot controller after a fresh claim; a refused claim changes nothing (R6). -/
def afterFreshClaim (l : LotController) : LotController :=
  match freshAnswer l with
  | .granted _ => { l with nextIndex := l.nextIndex + 1, freshBound := l.freshBound + 1 }
  | _ => l

/-- The entry of the resume list that holds an index. -/
def entryOf (l : LotController) (index : Nat) : Option ResumeEntry := l.resumeList.find? fun e => e.index == index

/-- The answers to a resume claim (R10). -/
inductive ResumeAnswer where
  | notListed
  | mismatch
  | granted
  deriving DecidableEq, Repr

/-- The answer to a resume claim (R10). -/
def resumeAnswer (l : LotController) (index : Nat) (waferId : Word) (dieX dieY : Half) : ResumeAnswer :=
  match entryOf l index with
  | none => .notListed
  | some e =>
    if e.claimedBy = none ∧ e.waferId = waferId ∧ e.dieX = dieX ∧ e.dieY = dieY then .granted else .mismatch

/-- Replace the entry of an index, keeping its place (R8). -/
def updateEntry (l : LotController) (index : Nat) (f : ResumeEntry → ResumeEntry) : LotController :=
  { l with resumeList := l.resumeList.map fun e => if e.index = index then f e else e }

/-- The lot controller after a resume claim: a granted one claims the entry for the site (R10). -/
def afterResumeClaim (l : LotController) (index : Nat) (waferId : Word) (dieX dieY : Half) (site : Site) : LotController :=
  match resumeAnswer l index waferId dieX dieY with
  | .granted => updateEntry l index fun e => { e with claimedBy := some site }
  | _ => l

/-- Remove the entry of an index; the gap closes (R8). -/
def removeEntry (l : LotController) (index : Nat) : LotController :=
  { l with resumeList := l.resumeList.eraseP fun e => e.index == index }

/-- Account a fresh index as spoiled (R13). -/
def spoilFresh (l : LotController) : LotController :=
  if l.freshBound = 0 then l else { l with freshBound := l.freshBound - 1, spoiled := l.spoiled + 1 }

/-- Account a listed index as spoiled and remove its entry (R13). -/
def spoilListed (l : LotController) (index : Nat) : LotController :=
  match entryOf l index with
  | none => l
  | some _ => { removeEntry l index with spoiled := l.spoiled + 1 }

/-- A spoil reported by a site (R13). -/
def afterSpoil (l : LotController) (b : BoundIndex) : LotController :=
  match b.kind with
  | .fresh => spoilFresh l
  | .resumed => spoilListed l b.index

/-- A commit reported by a site (R12). -/
def afterCommit (l : LotController) (b : BoundIndex) : LotController :=
  match b.kind with
  | .fresh => if l.freshBound = 0 then l else { l with freshBound := l.freshBound - 1, committed := l.committed + 1 }
  | .resumed =>
    match entryOf l b.index with
    | none => l
    | some _ => { removeEntry l b.index with committed := l.committed + 1 }

/-- Whether the resume list has room for a further entry (R9). -/
def listHasRoom (l : LotController) : Bool := decide (l.resumeList.length < Config.resumePlaces)

/-- The new entry of a hold (R9). -/
def heldEntry (index : Nat) (waferId : Word) (dieX dieY : Half) : ResumeEntry :=
  { index := index, waferId := waferId, dieX := dieX, dieY := dieY, count := 1, claimedBy := none }

/-- A hold reported by a site: the index joins the list, or is spoiled when the list is full (R9). -/
def afterHold (l : LotController) (index : Nat) (waferId : Word) (dieX dieY : Half) : LotController :=
  if l.freshBound = 0 then l
  else if listHasRoom l then
    { l with freshBound := l.freshBound - 1, resumeList := l.resumeList ++ [heldEntry index waferId dieX dieY] }
  else spoilFresh l

/-- The disposition of a hold (R9). -/
def holdDisposition (l : LotController) : Disposition × Option SpoilCause :=
  if listHasRoom l then (.held, none) else (.spoiled, some .resumeListFull)

/-- Whether a release takes the interruption count to 3 (R11). -/
def releaseSpoils (l : LotController) (index : Nat) : Bool :=
  match entryOf l index with
  | none => false
  | some e => decide (3 ≤ e.count + 1)

/-- A release reported by a site: the entry is unclaimed and its count rises; at 3 the index is spoiled (R11). -/
def afterRelease (l : LotController) (index : Nat) : LotController :=
  if releaseSpoils l index then spoilListed l index
  else updateEntry l index fun e => { e with claimedBy := none, count := e.count + 1 }

/-- The disposition of a release (R11). -/
def releaseDisposition (l : LotController) (index : Nat) : Disposition × Option SpoilCause :=
  if releaseSpoils l index then (.spoiled, some .resumeLimit) else (.held, none)

/-- The lot controller after a report about the index `b` of a site with these die figures (R9, R11, R12, R13). -/
def afterReport (l : LotController) (b : BoundIndex) (waferId : Word) (dieX dieY : Half) : Report → LotController
  | .commit => afterCommit l b
  | .spoil _ => afterSpoil l b
  | .hold => afterHold l b.index waferId dieX dieY
  | .release => afterRelease l b.index

/-- The disposition that the lot controller's decision gives (R9, R11, R12, R13). -/
def reportDisposition (l : LotController) (b : BoundIndex) : Report → Disposition × Option SpoilCause
  | .commit => (.committed, none)
  | .spoil cause => (.spoiled, some cause)
  | .hold => holdDisposition l
  | .release => releaseDisposition l b.index

/-- Every entry of the list is spoiled, in list order, and joins the closure list (R20 step 1, R22 step 1). -/
def spoilList (l : LotController) : LotController :=
  { l with
    spoiled := l.spoiled + l.resumeList.length
    closureList := l.closureList ++ l.resumeList.map (·.index)
    resumeList := [] }

/-- A fresh index held by a site is spoiled by a soft reset and joins the closure list (R22 step 2). -/
def spoilFreshByReset (l : LotController) (index : Nat) : LotController :=
  if l.freshBound = 0 then l else { spoilFresh l with closureList := l.closureList ++ [index] }

/-- Write the lot summary: the lot number word first set to 0, then the closure list, then k, the counts and the reason,
and the lot number word last (R21). -/
def writeSummary (s : State) (reason : ClosureReason) : State :=
  let l := s.lot
  let indices := l.closureList.take Config.closurePlaces
  let s := writeRam s atSummary 0
  let s := writeRamWords s (atSummary + 0x1C) (indices.map natWord)
  let s := writeRam s (atSummary + 0x18) (natWord l.closureList.length)
  let s := writeRamWords s (atSummary + 0x04)
    [natWord l.first, natWord l.nextIndex, natWord l.committed, natWord l.spoiled, reason.code]
  writeRam s atSummary l.number

/-- The eight words of a place of the resume-list copy (spec/09 section 9.3). -/
def resumeCopyWords (e : ResumeEntry) : List Word :=
  [natWord e.index, e.waferId, e.dieX.signExtend 32, e.dieY.signExtend 32, natWord e.count,
   if e.claimedBy.isSome then 1 else 0, natWord ((e.claimedBy.map (·.val)).getD 0), 0]

/-- Write the resume-list copy: the entries in list order, then zero up to the 64th place (R17). -/
def writeResumeCopy (s : State) : State :=
  let s0 := zeroRam s atResumeCopy (32 * Config.resumePlaces)
  writeRamWords s0 atResumeCopy (((s.lot.resumeList.take Config.resumePlaces).map resumeCopyWords).flatten)

end Sys2Proof.Machine
end

