-- ==== Sys2Proof/Machine/Channel.lean ====
section
/-!
DEFINITION. The site channels (spec/06): what a channel does with each response, how it finishes and writes its result
record, how it takes an interruption, and the commands in which the lot controller takes its claims and reports.
-/

namespace Sys2Proof.Machine

/-! ## Small changes of a channel -/

/-- Change the channel of a site. -/
def modifyChannel (s : State) (i : Site) (f : SiteChannel → SiteChannel) : State := setChannel s i (f (channelOf s i))

/-- Record what a channel has outstanding. -/
def setActivity (s : State) (i : Site) (a : Activity) : State := modifyChannel s i fun c => { c with activity := a }

/-! ## The result record (R107 step 2, R160) -/

/-- The present flag of bit `k`. -/
def presentFlag (k : Nat) (present : Bool) : Word := if present then BitVec.twoPow 32 k else 0

/-- The outcome has a key tag (R45). -/
def hasKeyTag (c : SiteChannel) : Bool := decide (c.outcome = some .provisioned) || decide (c.outcome = some .resumed)

/-- The words 0x04 to 0x3C of a result record (spec/09 section 9.4, R160). DESIGN CHOICE: the bits of a word that the layout
does not name are written 0 (notes/assumptions/28.md). The layout has no words for the coordinates of R183, which the
channel holds for each of its records (`notedCoordinates`, notes/assumptions/29.md). -/
def recordWords (c : SiteChannel) (cause : Option SpoilCause) : List Word :=
  let f := c.figures
  let binding := f.readbackBinding.getD (0, 0)
  let target := c.target.getD 0
  [presentFlag 0 c.bound.isSome ||| presentFlag 1 cause.isSome ||| presentFlag 2 f.readbackBinding.isSome |||
     presentFlag 3 (hasKeyTag c) ||| presentFlag 4 f.failingPosition.isSome ||| presentFlag 5 f.imageLocked.isSome,
   natWord ((c.bound.map (·.index)).getD 0),
   natWord binding.1,
   binding.2.setWidth 32,
   natWord f.blows,
   natWord f.pulses,
   natWord f.rePulses,
   if hasKeyTag c then (keyTagCheck target).setWidth 32 ||| ((keyTagPolarity target).setWidth 32 <<< 8) else 0,
   natWord ((f.failingPosition.map fun p => 16 * c.baseWord + p).getD 0),
   natWord f.linkRetries,
   natWord ((f.imageLocked.getD false).toNat),
   0, 0, 0, 0]

/-- The word 0x00 of a result record: outcome, disposition and spoil cause (spec/09 section 9.4). DESIGN CHOICE: bits 24..31,
which the layout does not name, are written 0 (notes/assumptions/28.md). -/
def recordHead (c : SiteChannel) (d : Disposition) (cause : Option SpoilCause) : Word :=
  ((c.outcome.map (·.code)).getD 0) ||| (d.code <<< 8) ||| (((cause.map (·.code)).getD 0) <<< 16)

/-- Write a site's result record into the active frame, word 0 last (R160). -/
def writeRecord (s : State) (i : Site) (d : Disposition) (cause : Option SpoilCause) : State :=
  match s.touchdown.activeFrame with
  | none => s
  | some f =>
    let c := channelOf s i
    writeRam (writeRamWords s (atRecord f i + 4) (recordWords c cause)) (atRecord f i) (recordHead c d cause)

/-- The coordinates that a site's records carry once it has written its record into the active frame: those of its plan copy
(R183). DESIGN CHOICE: they stand beside the words of the record (notes/assumptions/29.md). -/
def notedCoordinates (active : Option (Fin 2)) (c : SiteChannel) : Vector (Option (Half × Half)) 2 :=
  Vector.ofFn fun f => if active = some f then some (c.dieX, c.dieY) else c.recordCoordinates[f]

/-- Steps 2 and 3 of R107: the record is written with its coordinates, the work cleared, DONE entered, and the touchdown controller told. -/
def finish (s : State) (i : Site) (d : Disposition) (cause : Option SpoilCause) : State :=
  modifyChannel (writeRecord s i d cause) i fun c =>
    { c with
      bound := none, target := none, remaining := [], owed := none, state := .done, activity := .finished
      recordCoordinates := notedCoordinates s.touchdown.activeFrame c }

/-- A channel with no index reaches an outcome: step 1 of R107 is empty. -/
def endDie (s : State) (i : Site) (o : Outcome) (d : Disposition) : State :=
  finish (modifyChannel s i fun c => { c with outcome := some o }) i d none

/-- A channel that holds an index reaches an outcome and sends its report (R107 step 1). -/
def reportOutcome (s : State) (i : Site) (o : Outcome) (r : Report) : State :=
  modifyChannel s i fun c => { c with outcome := some o, activity := .reporting r }

/-- As `reportOutcome` with the spoil cause and failing position of a burn that failed. -/
def spoilAt (s : State) (i : Site) (o : Outcome) (cause : SpoilCause) (p : Option Nat) : State :=
  reportOutcome (modifyChannel s i fun c => { c with figures := { c.figures with failingPosition := p } }) i o
    (.spoil cause)

/-! ## Interruption (R110 to R114) -/

/-- The report that R111 gives for an interrupted channel; none when it holds no index. -/
def reportDecision (c : SiteChannel) : Option Report :=
  match c.bound with
  | none => none
  | some b =>
    match b.kind with
    | .fresh =>
      if !c.pulseGranted then some (.spoil .neverBurned)
      else if !bindingComplete c.remaining then some (.spoil .bindingCut)
      else some .hold
    | .resumed => some .release

/-- The outcome of an interrupted channel (R110). -/
def interruptOutcome (c : SiteChannel) : Outcome := if c.interruption = some .link then .linkFail else .interrupted

/-- Make the report that is owed, or finish at once when there is none (R110, R111). -/
def sendOwed (s : State) (i : Site) : State :=
  match (channelOf s i).owed with
  | none => finish s i .none none
  | some r => modifyChannel s i fun c => { c with owed := none, activity := .reporting r }

/-- An interrupted channel that has given back what it had outstanding: the disposition is decided, target and remaining
set are cleared (R99, R111), and an abort that finds the die armed makes one DISARM first (R114). -/
def dispose (s : State) (i : Site) : State :=
  let s1 := modifyChannel s i fun c =>
    { c with outcome := some (interruptOutcome c), owed := reportDecision c, target := none, remaining := [] }
  if (channelOf s i).interruption = some .aborted ∧ (channelOf s i).dieArmed then setActivity s1 i (.naming .disarm)
  else sendOwed s1 i

/-- A link failure or an unexpected status while an index is held interrupts the channel with reason LINK (R113). -/
def interruptByLink (s : State) (i : Site) : State :=
  dispose (modifyChannel s i fun c => { c with interruption := some .link }) i

/-- An exchange of the channel ended in link failure (R94, R113, R114). -/
def channelLinkFailure (s : State) (i : Site) : State :=
  match (channelOf s i).activity with
  | .exchanging .disarm => sendOwed s i
  | .exchanging _ =>
    if (channelOf s i).bound.isNone then endDie s i .linkFail .none else interruptByLink s i
  | _ => s

/-- A status that the exchange does not expect (R94, R113). -/
def unexpectedStatus (s : State) (i : Site) : State :=
  if (channelOf s i).bound.isNone then endDie s i .wrongDie .none else interruptByLink s i

/-! ## The lot check (R92) -/

/-- The lot values of a channel (R92). -/
def withLotValues (c : SiteChannel) (p : Profile) : SiteChannel :=
  { c with dieType := p.dieType, minWords := p.minWords, baseWord := p.baseWord, maxAttempts := p.maxAttempts }

/-- The lot check: with no lot the die ends NO_LOT; otherwise the channel takes its lot values and names its IDENT (R92,
R93). -/
def lotCheck (s : State) (i : Site) : State :=
  if s.lot.state = .noLot then endDie s i .noLot .none
  else modifyChannel s i fun c => { withLotValues c s.lot.profile with activity := .naming .ident }

/-! ## Identification and scan (R93 to R98) -/

/-- The IDENT tests (R93). The data are the die type, the array words and the lock state (R136). -/
def identResponse (s : State) (i : Site) (data : List Byte) : State :=
  let c := channelOf s i
  let dieType := (halvesOf data).getD 0 0
  let words := ((halvesOf data).getD 1 0).toNat
  let locked := data.getD 4 0 ≠ 0
  if dieType ≠ c.dieType ∨ words < c.baseWord + 12 ∨ words < c.minWords then endDie s i .wrongDie .none
  else if c.action ≠ 2 ∧ locked then endDie s i .dieRefused .none
  else
    modifyChannel s i fun c =>
      { c with state := .scan, activity := .naming (if c.action = 2 then .onlyPoint else .blankPoint) }

/-- The readback of a READ_ONLY site (R95). -/
def onlyReadback (s : State) (i : Site) (x : Image) : State :=
  endDie
    (modifyChannel s i fun c =>
      { c with
        figures :=
          { c.figures with
            blows := blownCount x
            readbackBinding := if validBinding x then some (readbackIndex x, readbackTag x) else none
            imageLocked := some (isLocked x) } })
    i .readDone .read

/-- The LOW readback and the blank test (R96). -/
def blankReadback (s : State) (i : Site) (x : Image) : State :=
  setActivity s i (if isBlank x then .claimingFresh else .naming .evalPoint)

/-- Cases 2 and 3 of the evaluation: LOCKED_DIE or NOT_BLANK, with the readback binding when valid (R97). -/
def notListed (s : State) (i : Site) : State :=
  let x := (channelOf s i).readback
  endDie
    (modifyChannel s i fun c =>
      { c with
        figures :=
          { c.figures with
            readbackBinding := if validBinding x then some (readbackIndex x, readbackTag x) else none } })
    i (if validBinding x && isLocked x then .lockedDie else .notBlank) .none

/-- The NORMAL readback and the evaluation up to the resume claim (R97). -/
def evalReadback (s : State) (i : Site) (x : Image) : State :=
  let s1 := modifyChannel s i fun c => { c with readback := x }
  if validBinding x ∧ readbackTag x = lotTag s.lot then setActivity s1 i .claimingResume else notListed s1 i

/-- Enter the phase of the cursor with attempt 1, or CHECK when nothing remains (R100, R103). -/
def nextPosition (s : State) (i : Site) : State :=
  modifyChannel s i fun c =>
    match c.remaining with
    | [] => { c with state := .check, attempt := 1, activity := .naming .lowPoint }
    | p :: _ => { c with state := phaseOf p, attempt := 1, activity := .naming .arm }

/-- The key is delivered: the target is composed (R39, R99), a resumed readback is tested for an overblown region (R98),
and the remaining set is formed (R47). -/
def takeKey (s : State) (i : Site) (k : Key) : State :=
  let c := channelOf s i
  match c.bound with
  | none => s
  | some b =>
    let target := composeTarget (lotTag s.lot) b.index k
    let s1 := modifyChannel s i fun c => { c with target := some target }
    match b.kind with
    | .fresh => nextPosition (modifyChannel s1 i fun c => { c with remaining := freshRemaining target }) i
    | .resumed =>
      match overblownAt target c.readback with
      | some p => spoilAt s1 i .overblown .overblown (some p)
      | none => nextPosition (modifyChannel s1 i fun c => { c with remaining := resumeRemaining target c.readback }) i

/-! ## Burn and final check (R101 to R106) -/

/-- The status of an ARM response (R101). -/
def armResponse (s : State) (i : Site) (status : Byte) : State :=
  if status = 0x01 then modifyChannel s i fun c => { c with dieArmed := true, activity := .askingSlot }
  else if status = 0x02 ∨ status = 0x03 then spoilAt s i .dieRefused .dieRefused none
  else interruptByLink s i

/-- A not-blown result: a further attempt, or BURN_FAIL at the lot's max attempts (R104). -/
def notBlown (s : State) (i : Site) (p : Nat) : State :=
  if (channelOf s i).attempt < (channelOf s i).maxAttempts then
    modifyChannel s i fun c => { c with attempt := c.attempt + 1, activity := .naming .arm }
  else spoilAt s i .burnFail .burnFail (some p)

/-- A verify read (R103). -/
def verifyReadback (s : State) (i : Site) (word : Half) : State :=
  let c := channelOf s i
  match c.remaining with
  | [] => s
  | p :: rest =>
    match verifyTest (c.target.getD 0) p rest word with
    | .unexpectedBlow q => spoilAt s i .overblown .overblown (some q)
    | .notBlown => notBlown s i p
    | .verified =>
      nextPosition
        (modifyChannel s i fun c =>
          { c with remaining := rest, figures := { c.figures with blows := c.figures.blows + 1 } }) i

/-- The LOW readback of the final check (R106, R53). -/
def lowReadback (s : State) (i : Site) (x : Image) : State :=
  match overblownAt ((channelOf s i).target.getD 0) x with
  | some p => spoilAt s i .verifyFail .verifyFail (some p)
  | none => setActivity s i (.naming .highPoint)

/-- The outcome of a passed final check (R106). -/
def passOutcome (c : SiteChannel) : Outcome :=
  match c.bound with
  | some { kind := .resumed, .. } => .resumed
  | _ => .provisioned

/-- The HIGH readback of the final check (R106, R53). -/
def highReadback (s : State) (i : Site) (x : Image) : State :=
  match underblownAt ((channelOf s i).target.getD 0) x with
  | some p => spoilAt s i .verifyFail .verifyFail (some p)
  | none => reportOutcome s i (passOutcome (channelOf s i)) .commit

/-! ## Responses -/

/-- The exchange that follows a POINT answered OK. -/
def readAfterPoint : LinkTask → Option LinkTask
  | .onlyPoint => some .onlyRead
  | .blankPoint => some .blankRead
  | .evalPoint => some .evalRead
  | .verifyPoint => some .verifyRead
  | .lowPoint => some .lowRead
  | .highPoint => some .highRead
  | _ => none

/-- What the channel does with the data of an OK answer (R93 to R106). -/
def okResponse (s : State) (i : Site) (task : LinkTask) (data : List Byte) : State :=
  match readAfterPoint task with
  | some t => setActivity s i (.naming t)
  | none =>
    let x := imageOfWords (halvesOf data)
    match task with
    | .ident => identResponse s i data
    | .onlyRead => onlyReadback s i x
    | .blankRead => blankReadback s i x
    | .evalRead => evalReadback s i x
    | .verifyRead => verifyReadback s i ((halvesOf data).getD 0 0)
    | .lowRead => lowReadback s i x
    | .highRead => highReadback s i x
    | _ => s

/-- A response that the port hands on (R148). -/
def channelResponse (s : State) (i : Site) (status : Byte) (data : List Byte) : State :=
  match (channelOf s i).activity with
  | .exchanging .arm => armResponse s i status
  | .exchanging .disarm => sendOwed s i
  | .exchanging t => if status = 0x00 then okResponse s i t data else unexpectedStatus s i
  | _ => s

/-- The request that a channel names for a task (R93, R95, R101, R103, R106, R114). -/
def taskRequest (c : SiteChannel) : LinkTask → LinkRequest
  | .ident => .ident
  | .onlyPoint => .point (BitVec.ofNat 16 c.baseWord)
  | .blankPoint => .point (BitVec.ofNat 16 c.baseWord)
  | .evalPoint => .point (BitVec.ofNat 16 c.baseWord)
  | .lowPoint => .point (BitVec.ofNat 16 c.baseWord)
  | .highPoint => .point (BitVec.ofNat 16 c.baseWord)
  | .verifyPoint => .point (BitVec.ofNat 16 (c.baseWord + c.remaining.headD 0 / 16))
  | .onlyRead => .read 12 .normal
  | .blankRead => .read 12 .low
  | .evalRead => .read 12 .normal
  | .lowRead => .read 12 .low
  | .highRead => .read 12 .high
  | .verifyRead => .read 1 .high
  | .arm => .arm (BitVec.ofNat 16 (16 * c.baseWord + c.remaining.headD 0))
  | .disarm => .disarm

/-! ## Claims and reports, as the lot controller takes them -/

/-- FRESH_CLAIM (R6, R96). A channel that was interrupted meanwhile disposes of the answer under R112. -/
def execFreshClaim (i : Site) (s : State) : Host.Outcome State Fault Refusal :=
  .next
    (if (channelOf s i).activity = .claimingFresh ∧ lotIsOpen s.lot then
       let s1 := setLot s (afterFreshClaim s.lot)
       let interrupted := (channelOf s i).interruption.isSome
       match freshAnswer s.lot with
       | .granted n =>
         let s2 := modifyChannel s1 i fun c =>
           { c with bound := some { index := n, kind := .fresh }, pulseGranted := false, activity := .askingKey }
         if interrupted then dispose s2 i else s2
       | .noIndex => if interrupted then dispose s1 i else endDie s1 i .noIndex .none
       | .lotClosing => if interrupted then dispose s1 i else endDie s1 i .lotClosing .none
     else s)

/-- RESUME_CLAIM (R10, R97). A channel that was interrupted meanwhile disposes of the answer under R112. -/
def execResumeClaim (i : Site) (s : State) : Host.Outcome State Fault Refusal :=
  .next
    (if (channelOf s i).activity = .claimingResume ∧ lotIsOpen s.lot then
       let c := channelOf s i
       let index := readbackIndex c.readback
       let s1 := setLot s (afterResumeClaim s.lot index c.waferId c.dieX c.dieY i)
       let interrupted := c.interruption.isSome
       match resumeAnswer s.lot index c.waferId c.dieX c.dieY with
       | .granted =>
         let s2 := modifyChannel s1 i fun c =>
           { c with bound := some { index := index, kind := .resumed }, activity := .askingKey }
         if interrupted then dispose s2 i else s2
       | .mismatch =>
         if interrupted then dispose s1 i
         else
           endDie
             (modifyChannel s1 i fun c =>
               { c with figures := { c.figures with readbackBinding := some (index, readbackTag c.readback) } })
             i .bindingMismatch .none
       | .notListed => if interrupted then dispose s1 i else notListed s1 i
     else s)

/-- The lot controller takes the report of a site, and the channel finishes with the disposition it decides
(R9, R11, R12, R13, R107). -/
def takeReport (s : State) (i : Site) (r : Report) : State :=
  match (channelOf s i).bound with
  | none => s
  | some b =>
    let c := channelOf s i
    let d := reportDisposition s.lot b r
    finish (setLot s (afterReport s.lot b c.waferId c.dieX c.dieY r)) i d.1 d.2

/-- HOLD (R9). -/
def execHold (i : Site) (s : State) : Host.Outcome State Fault Refusal :=
  .next (if (channelOf s i).activity = .reporting .hold ∧ lotIsOpen s.lot then takeReport s i .hold else s)

/-- RELEASE (R11). -/
def execRelease (i : Site) (s : State) : Host.Outcome State Fault Refusal :=
  .next (if (channelOf s i).activity = .reporting .release ∧ lotIsOpen s.lot then takeReport s i .release else s)

/-- COMMIT (R12). -/
def execCommit (i : Site) (s : State) : Host.Outcome State Fault Refusal :=
  .next (if (channelOf s i).activity = .reporting .commit ∧ lotIsOpen s.lot then takeReport s i .commit else s)

/-- SPOIL (R13). -/
def execSpoil (i : Site) (s : State) : Host.Outcome State Fault Refusal :=
  .next
    (match (channelOf s i).activity with
     | .reporting (.spoil cause) => if lotIsOpen s.lot then takeReport s i (.spoil cause) else s
     | _ => s)

end Sys2Proof.Machine
end

