-- ==== Sys2Proof/Machine/Link.lean ====
section
/-!
DEFINITION. The probe link ports (spec/08): frames and their check byte, sending, judging a response, charged and free
resends, link failure, and the commands of the link.
-/

namespace Sys2Proof.Machine

/-! ## Frames (R136, R137) -/

/-- The level byte of a READ (R136). -/
def MarginLevel.code : MarginLevel → Byte
  | .normal => 0
  | .low => 1
  | .high => 2

/-- The opcode and parameter bytes of a request (R136). -/
def requestBytes : LinkRequest → List Byte
  | .ident => [0x11]
  | .point a => 0x22 :: bytesOfHalf a
  | .read n l => [0x33, n, l.code]
  | .arm f => 0x44 :: bytesOfHalf f
  | .disarm => [0x55]

/-- The sum of bytes modulo 256 (R137). -/
def byteSum (bytes : List Byte) : Byte := bytes.foldr (· + ·) 0

/-- The correct check byte of the other bytes of a frame (R137). -/
def checkByte (bytes : List Byte) : Byte := -(byteSum bytes)

/-- The request frame, with its correct check or, as a test frame, with the complement of it (R137). -/
def requestFrame (r : LinkRequest) (test : Bool) : List Byte :=
  let body := requestBytes r
  body ++ [if test then ~~~ checkByte body else checkByte body]

/-- The statuses the port and the channel tell apart (R136). -/
abbrev statusOk : Byte := 0x00
abbrev statusCheckError : Byte := 0x0F

/-- The length of a response by its status and the request it answers (R138). -/
def expectedLength (r : LinkRequest) (status : Byte) : Nat :=
  if status = statusOk then
    match r with
    | .ident => 7
    | .read n _ => 2 + 2 * n.toNat
    | _ => 2
  else 2

/-! ## Sending (R140, R149) -/

/-- Change the port of a site. -/
def modifyPort (s : State) (i : Site) (f : LinkPort → LinkPort) : State := setPort s i (f (portOf s i))

/-- Change the counters of a port. -/
def countOn (s : State) (i : Site) (f : LinkCounters → LinkCounters) : State :=
  modifyPort s i fun p => { p with counters := f p.counters }

/-- The link-test spacing N as used (spec/08 section 8.5). -/
def usedSpacing (w : Word) : Nat := if w = 0 then 0 else clampNat 2 1000 w.toNat

/-- Whether the next frame of a port is a test frame (R149). -/
def isTestFrame (spacing n : Nat) : Bool := decide (n ≠ 0) && decide (n ≤ spacing + 1)

/-- Send a request frame, start the response timer and listen (R140, R149, R151). -/
def sendFrame (s : State) (i : Site) (r : LinkRequest) (rePoint : Bool) : State :=
  let n := usedSpacing (readRam s atLinkSpacing)
  let limit := s.lot.profile.responseLimit
  modifyPort s i fun p =>
    let test := isTestFrame p.spacing n
    { p with
      phase := .listening
      timer := some limit
      spacing := if n = 0 ∨ test then 0 else p.spacing + 1
      counters :=
        { p.counters with
          framesSent := saturatingInc p.counters.framesSent
          testFrames := if test then saturatingInc p.counters.testFrames else p.counters.testFrames }
      testFrame := test
      onRePoint := rePoint
      line := requestFrame r test }

/-- The request of the frame that the port listens for: the exchange, or the POINT of a re-point (R144). -/
def currentRequest (p : LinkPort) : Option LinkRequest :=
  if p.onRePoint then p.pointedAddress.map .point else p.exchange

/-- Resend the frame just sent, at once: a free resend, or the charged resend after a refused request (R143, R150). -/
def repeatFrame (s : State) (i : Site) : State :=
  match currentRequest (portOf s i) with
  | some r => sendFrame s i r (portOf s i).onRePoint
  | none => s

/-- The charged resend at the end of the drain interval: a READ as a re-point, anything else as itself (R143, R144). -/
def resendAfterDrain (s : State) (i : Site) : State :=
  match (portOf s i).exchange, (portOf s i).pointedAddress with
  | some (.read _ _), some a => sendFrame s i (.point a) true
  | some r, _ => sendFrame s i r false
  | none, _ => s

/-! ## The end of a sending (R141 to R146) -/

/-- The exchange ends: the port stops its timer and returns to IDLE, the retry count as it was (R141, R146, R147). -/
def idlePort (p : LinkPort) : LinkPort :=
  { p with phase := .idle, exchange := none, timer := none, testFrame := false, onRePoint := false }

/-- An outstanding exchange is abandoned: nothing is handed on (R147). -/
def abandon (s : State) (i : Site) : State := modifyPort s i idlePort

/-- The exchange ends in link failure (R146). -/
def linkFailure (s : State) (i : Site) : State := channelLinkFailure (modifyPort s i idlePort) i

/-- A failed sending (R142): a charged resend, at once after a refused request and after a drain interval otherwise
(R143), or link failure when two resends have been charged. -/
def failSending (s : State) (i : Site) (refused : Bool) : State :=
  if (portOf s i).retryCount < 2 then
    let s1 := modifyPort s i fun p => { p with retryCount := p.retryCount + 1 }
    let s2 := modifyChannel s1 i fun c => { c with figures := { c.figures with linkRetries := c.figures.linkRetries + 1 } }
    if refused then repeatFrame s2 i
    else modifyPort s2 i fun p => { p with phase := .draining, timer := some s.lot.profile.responseLimit }
  else linkFailure s i

/-- The exchange ends with a response, which is handed to the channel (R141). -/
def handOn (s : State) (i : Site) (status : Byte) (data : List Byte) : State :=
  channelResponse (modifyPort s i idlePort) i status data

/-- The POINT whose OK answer the port records (R141). -/
def recordPoint (p : LinkPort) (r : LinkRequest) : LinkPort :=
  match r with
  | .point a => { p with pointedAddress := some a }
  | _ => p

/-- A good response to a frame sent with its correct check (R141, R144). -/
def goodResponse (s : State) (i : Site) (r : LinkRequest) (status : Byte) (data : List Byte) : State :=
  if status = statusCheckError then
    failSending (countOn s i fun c => { c with dieCheckErrors := saturatingInc c.dieCheckErrors }) i true
  else if status = statusOk then
    let s1 := modifyPort s i fun p => recordPoint p r
    match (portOf s i).onRePoint, (portOf s i).exchange with
    | true, some x => sendFrame s1 i x false
    | _, _ => handOn s1 i status data
  else handOn s i status data

/-- A good response to a test frame: refused as it should be, or an escape (R150). -/
def testResponse (s : State) (i : Site) (status : Byte) : State :=
  if status = statusCheckError then repeatFrame s i else linkFailure s i

/-- The bytes that have arrived while LISTENING: incomplete, damaged or good (R138, R141, R142). -/
def judgeResponse (s : State) (i : Site) (r : LinkRequest) (bytes : List Byte) : State :=
  match bytes with
  | [] => s
  | status :: _ =>
    let len := expectedLength r status
    if bytes.length < len then s
    else
      let frame := bytes.take len
      if byteSum frame ≠ 0 then
        failSending (countOn s i fun c => { c with checkErrors := saturatingInc c.checkErrors }) i false
      else
        let s1 := countOn s i fun c => { c with goodResponses := saturatingInc c.goodResponses }
        if (portOf s i).testFrame then testResponse s1 i status
        else goodResponse s1 i r status ((frame.drop 1).dropLast)

/-- The request that a channel names becomes the exchange of its port, which is IDLE, and is sent (R140). -/
def takeExchange (s : State) (i : Site) : State :=
  match (channelOf s i).activity with
  | .naming t =>
    if (portOf s i).phase = .idle then
      let r := taskRequest (channelOf s i) t
      let s1 := modifyPort s i fun p => { p with exchange := some r, retryCount := 0 }
      sendFrame (setActivity s1 i (.exchanging t)) i r false
    else s
  | _ => s

/-- EXCHANGE_REQUEST (R140): the port takes the exchange that its channel names. A channel whose lot check is still to come
makes it first (R5, R92). -/
def execExchangeRequest (i : Site) (s : State) : Host.Outcome State Fault Refusal :=
  .next (takeExchange (if (channelOf s i).activity = .starting then lotCheck s i else s) i)

/-- RESPONSE_COMPLETE (R141): bytes that arrive while the port is not LISTENING are discarded (R138). -/
def execResponseComplete (i : Site) (bytes : List Byte) (s : State) : Host.Outcome State Fault Refusal :=
  .next
    (match (portOf s i).phase, currentRequest (portOf s i) with
     | .listening, some r => judgeResponse s i r bytes
     | _, _ => s)

/-- RESPONSE_TIMEOUT (R142). -/
def execResponseTimeout (i : Site) (s : State) : Host.Outcome State Fault Refusal :=
  .next
    (if (portOf s i).phase = .listening then
       failSending (countOn s i fun c => { c with timeouts := saturatingInc c.timeouts }) i false
     else s)

/-- DRAIN_END (R143). -/
def execDrainEnd (i : Site) (s : State) : Host.Outcome State Fault Refusal :=
  .next (if (portOf s i).phase = .draining then resendAfterDrain s i else s)

/-- INTERRUPTION (R109, R110): the channel takes the interruption that was sent to it and gives back what it has
outstanding; a withdrawal or a cut is taken by a command of its own, and the channel disposes of its index after it. -/
def execInterruption (i : Site) (s : State) : Host.Outcome State Fault Refusal :=
  .next
    (match (channelOf s i).interruptSent with
     | none => s
     | some reason =>
       let s1 := modifyChannel s i fun c => { c with interruptSent := none }
       if (channelOf s i).interruption.isSome then s1
       else
         let s2 := modifyChannel s1 i fun c => { c with interruption := some reason }
         match (channelOf s i).activity with
         | .starting => dispose s2 i
         | .naming _ => dispose s2 i
         | .exchanging _ => dispose (abandon s2 i) i
         | .claimingFresh => s2
         | .claimingResume => s2
         | .askingKey => dispose s2 i
         | .awaitingKey => setActivity s2 i .withdrawingKey
         | .askingSlot => dispose s2 i
         | .awaitingSlot => setActivity s2 i .withdrawingSlot
         | .pulsing => setActivity s2 i .cutting
         | _ => s1)

end Sys2Proof.Machine
end

