-- ==== Sys2Proof/Machine/Mirror.lean ====
section
/-!
DEFINITION. The status mirror writer (R178, R179): its triggers, its schedule, its groups, and the commands of the mirror.
-/

namespace Sys2Proof.Machine

/-- The cursor of a channel as the mirror shows it (R179). -/
def cursorWord (c : SiteChannel) : Word :=
  match c.remaining with
  | [] => BitVec.allOnes 32
  | p :: _ => natWord p

/-- The bound index of a channel as the mirror shows it (R179). -/
def boundWord (c : SiteChannel) : Word :=
  match c.bound with
  | none => BitVec.allOnes 32
  | some b => natWord b.index

/-- The size of the waiting set (R133). -/
def waitingSize (r : RailController) : Nat := Config.allSites.countP fun i => (r.waiting[i]).isSome

/-- The group of the touchdown controller (R179). -/
def touchdownGroup (s : State) : Nat × List Word :=
  (atMirror + 0x0C,
    [s.touchdown.state.code, natWord s.touchdown.takePointer.val, s.touchdown.total, s.touchdown.bounced,
     s.touchdown.planless, s.touchdown.overlapped])

/-- The group of the lot controller (R179). -/
def lotGroup (s : State) : Nat × List Word :=
  (atMirror + 0x24,
    [s.lot.state.code, s.lot.number, natWord s.lot.nextIndex, natWord s.lot.committed, natWord s.lot.spoiled,
     natWord s.lot.freshBound, natWord s.lot.resumeList.length, natWord s.rail.slotTotal])

/-- The group of the rail controller, with the words 0x4054..0x405F that are written 0 (R179). -/
def railGroup (s : State) : Nat × List Word :=
  (atMirror + 0x44,
    [natWord s.rail.slotsInUse, natWord (waitingSize s.rail), signedWord s.reading, if s.rail.hold then 1 else 0, 0, 0, 0])

/-- The group of a site (R179). -/
def siteGroup (s : State) (i : Site) : Nat × List Word :=
  (atMirror + 0x60 + 16 * i.val, [(channelOf s i).state.code, boundWord (channelOf s i), cursorWord (channelOf s i), 0])

/-- The group of a port: its six counters in the order of R151 (R179). -/
def portGroup (s : State) (i : Site) : Nat × List Word :=
  let c := (portOf s i).counters
  (atMirror + 0x160 + 24 * i.val,
    [c.framesSent, c.goodResponses, c.checkErrors, c.timeouts, c.dieCheckErrors, c.testFrames])

/-- The groups of a mirror write in table order (R179 step 3). -/
def mirrorGroups (s : State) : List (Nat × List Word) :=
  [touchdownGroup s, lotGroup s, railGroup s] ++ Config.allSites.map (siteGroup s) ++ Config.allSites.map (portGroup s)

/-- The mode used: 0 when the value read is 0 or above 2 (R179 step 2). -/
def mirrorMode (w : Word) : Nat := if w.toNat ≤ 2 then w.toNat else 0

/-- The beginning of a write: the count rises, the schedule is set anew from the configuration block, the start count and
the mode are written, and the groups as they now stand are kept for the writer (R178, R179). -/
def beginMirrorWrite (s : State) : State :=
  let mode := mirrorMode (readRam s atMirrorMode)
  let interval := (readRam s atMirrorInterval).toNat
  let count := s.mirror.count + 1
  let s := setMirror s
    { s.mirror with
      count := count
      intervalTimer := if mode = 1 then some (clampNat 1 60000 interval) else none
      countdown := if mode = 2 then some (clampNat 1 4096 interval) else none
      writing := true
      snapshot := mirrorGroups s }
  writeRam (writeRam s atMirror count) (atMirror + 0x08) (natWord mode)

/-- A trigger of a mirror write: it begins a write, or sets write pending while one is in progress (R178). -/
def triggerMirror (s : State) : State :=
  if s.mirror.writing then setMirror s { s.mirror with writePending := true } else beginMirrorWrite s

/-- The rail controller counts a pulse to the writer; a pulse counted while the countdown is none is discarded (R178). -/
def countPulse (m : MirrorWriter) : MirrorWriter :=
  match m.countdown with
  | none => m
  | some n => if n ≤ 1 then { m with countdown := none, zeroReached := m.zeroReached + 1 } else { m with countdown := some (n - 1) }

/-- Write the groups, each as it stood when the write began where its bit of `early` is set, and as it stands now
otherwise (R179 step 3). -/
def writeGroups (m : Memory) (early : BitVec 35) : List (Nat × List Word) → List (Nat × List Word) → Nat → Memory
  | old :: olds, new :: news, g =>
    let group := if early.getLsbD g then old else new
    writeGroups (writeWords m group.1 group.2) early olds news (g + 1)
  | [], new :: news, g => writeGroups (writeWords m new.1 new.2) early [] news (g + 1)
  | _, [], _ => m

/-- The end of the write in progress: the groups, then the end count (R179 steps 3 and 4). DESIGN CHOICE: R179 leaves open
when, during the write, the words of each group land; here all of them land at the end (notes/assumptions/10.md). -/
def endMirrorWrite (s : State) (early : BitVec 35) : State :=
  let s1 : State := { s with ram := writeGroups s.ram early s.mirror.snapshot (mirrorGroups s) 0 }
  let s2 := writeRam s1 (atMirror + 0x04) s.mirror.count
  setMirror s2 { s2.mirror with writing := false, snapshot := [] }

/-- MIRROR_NOW (R178, R175): no effect during the start-up or a soft reset. -/
def execMirrorNow (s : State) : Host.Outcome State Fault Refusal :=
  .next (if s.phase = .running then triggerMirror s else s)

/-- MIRROR_INTERVAL_EXPIRY (R178): the timer, which has run out, stops and triggers a write. -/
def execMirrorIntervalExpiry (s : State) : Host.Outcome State Fault Refusal :=
  .next
    (match s.mirror.intervalTimer with
     | none => s
     | some _ => triggerMirror (setMirror s { s.mirror with intervalTimer := none }))

/-- MIRROR_COUNTDOWN_ZERO (R178): the countdown has reached 0 and triggers a write; each time it did is one trigger. -/
def execMirrorCountdownZero (s : State) : Host.Outcome State Fault Refusal :=
  .next
    (match s.mirror.zeroReached with
     | 0 => s
     | n + 1 => triggerMirror (setMirror s { s.mirror with zeroReached := n }))

/-- MIRROR_WRITE_END (R178, R179): the write ends, and with write pending set another begins at once. -/
def execMirrorWriteEnd (early : BitVec 35) (s : State) : Host.Outcome State Fault Refusal :=
  .next
    (if s.mirror.writing then
       let s1 := endMirrorWrite s early
       if s1.mirror.writePending then beginMirrorWrite (setMirror s1 { s1.mirror with writePending := false }) else s1
     else s)

end Sys2Proof.Machine
end

