-- ==== Sys2Proof/Machine/Profile.lean ====
section
/-!
DEFINITION. Product profiles: reading a record (R57), the used values (R58 to R60), the clamp mask (R62), the structural
tests (R63, R64), the slot total (R118) and the pulse widths (R128 to R130).
-/

namespace Sys2Proof.Machine

/-- A profile record as stored (spec/09 section 9.2). -/
structure StoredProfile where
  dieType : Half
  minWords : Word
  baseWord : Word
  baseWidth : Word
  refTemp : Word
  gain : Word
  draw : Word
  maxAttempts : BitVec 3
  responseLimit : Word
  windows : List Window
  deriving DecidableEq, Repr

/-- Window `w` of the record at `a` (R61: any nonzero enable word enables). -/
def readWindow (m : Memory) (a w : Nat) : Window :=
  { enabled := readWord m (a + 0x24 + 12 * w) != 0
    first := (readWord m (a + 0x28 + 12 * w)).setWidth 16
    last := (readWord m (a + 0x2C + 12 * w)).setWidth 16 }

/-- The whole of profile record `k`, read once (R57). -/
def readProfile (s : State) (k : Nat) : StoredProfile :=
  let a := atProfile k
  { dieType := (readRam s a).setWidth 16
    minWords := readRam s (a + 0x04)
    baseWord := readRam s (a + 0x08)
    baseWidth := readRam s (a + 0x0C)
    refTemp := readRam s (a + 0x10)
    gain := readRam s (a + 0x14)
    draw := readRam s (a + 0x18)
    maxAttempts := (readRam s (a + 0x1C)).setWidth 3
    responseLimit := readRam s (a + 0x20)
    windows := [readWindow s.ram a 0, readWindow s.ram a 1, readWindow s.ram a 2, readWindow s.ram a 3] }

/-- The used value of every field (R58 to R60). -/
def usedProfile (p : StoredProfile) : Profile :=
  { dieType := p.dieType
    minWords := clampNat 16 256 p.minWords.toNat
    baseWord := p.baseWord.toNat
    baseWidth := clampNat 10 2000 p.baseWidth.toNat
    refTemp := clampInt (-40) 150 p.refTemp.toInt
    gain := clampNat 0 31 p.gain.toNat
    draw := clampNat 5 1000 p.draw.toNat
    maxAttempts := clampNat 1 3 p.maxAttempts.toNat
    responseLimit := clampNat 2 1000 p.responseLimit.toNat
    windows := p.windows }

/-- The rail capacity as used (R59). -/
def usedCapacity (capacity : Word) : Nat := clampNat 10 4000 capacity.toNat

/-- The clamp mask: bit k is 1 when the used value differs from the stored value (R62). -/
def clampMask (p : StoredProfile) (capacity : Word) : Nat :=
  let u := usedProfile p
  bitSum
    [decide (u.minWords ≠ p.minWords.toNat), decide (u.baseWidth ≠ p.baseWidth.toNat), decide (u.refTemp ≠ p.refTemp.toInt),
     decide (u.gain ≠ p.gain.toNat), decide (u.draw ≠ p.draw.toNat), decide (u.maxAttempts ≠ p.maxAttempts.toNat),
     decide (u.responseLimit ≠ p.responseLimit.toNat), decide (usedCapacity capacity ≠ capacity.toNat)]

/-- The first absolute fuse number of the image span (R58). -/
def spanFirst (u : Profile) : Nat := 16 * u.baseWord

/-- The last absolute fuse number of the image span (R58). -/
def spanLast (u : Profile) : Nat := 16 * u.baseWord + 191

/-- An enabled window overlaps the image span (R64). -/
def windowOverlaps (u : Profile) (w : Window) : Bool :=
  decide (w.first.toNat ≤ spanLast u) && decide (spanFirst u ≤ w.last.toNat)

/-- The fault code of the windows, taken in order from window `k` (R63, orders 3 to 10); 0 when none fails. -/
def windowFault (u : Profile) : List Window → Nat → Nat
  | [], _ => 0
  | w :: ws, k =>
    if w.enabled && decide (w.last.toNat < w.first.toNat) then 16 + k
    else if w.enabled && windowOverlaps u w then 32 + k
    else windowFault u ws (k + 1)

/-- The fault code of a profile (R63); 0 when it passes. -/
def faultCode (u : Profile) (capacity : Nat) : Nat :=
  if u.dieType = 0 then 1
  else if u.minWords < u.baseWord + 12 then 2
  else if windowFault u u.windows 0 ≠ 0 then windowFault u u.windows 0
  else if capacity < u.draw then 3
  else 0

/-- The slot total S (R118). -/
def slotTotalOf (capacity draw : Nat) : Nat := min 16 (capacity / draw)

/-- The temperature that enters the width, in whole degrees: the reading divided by 16 toward minus infinity, clamped
(R128). -/
def widthDegrees (reading : Int) : Int := clampInt (-40) 150 (reading / 16)

/-- The width factor F (R129). -/
def widthFactor (u : Profile) (reading : Int) : Int :=
  clampInt 128 512 (256 + (u.gain : Int) * (u.refTemp - widthDegrees reading))

/-- The width W1 (R129). -/
def baseWidthAt (u : Profile) (reading : Int) : Nat := u.baseWidth * (widthFactor u reading).toNat / 256

/-- The width of a pulse by its attempt number (R130). -/
def pulseWidth (u : Profile) (reading : Int) (attempt : Nat) : Nat :=
  let w := baseWidthAt u reading
  min 4000 (if attempt = 1 then w else if attempt = 2 then 3 * w / 2 else 2 * w)

end Sys2Proof.Machine
end

