-- ==== Sys2Proof/Machine/Rail.lean ====
section
/-!
DEFINITION. The programming rail controller and the temperature monitor (spec/07): grants, the round-robin scan, pulse end
and cut, the temperature hold, and the commands of the rail; beside them the commands of the derivation unit (R35, R34,
R36).
-/

namespace Sys2Proof.Machine

/-! ## Grants and scans (R120 to R122) -/

/-- The channel's side of a grant (R102, R121 step 5). A channel whose withdrawal has not yet been taken has its pulse cut
in turn (R124). -/
def countGrant (c : SiteChannel) (attempt : Nat) : SiteChannel :=
  { c with
    figures :=
      { c.figures with
        pulses := c.figures.pulses + 1
        rePulses := if 2 ≤ attempt then c.figures.rePulses + 1 else c.figures.rePulses }
    pulseGranted := c.pulseGranted || decide ((c.bound.map (·.kind)) = some .fresh)
    activity :=
      match c.activity with
      | .askingSlot => .pulsing
      | .awaitingSlot => .pulsing
      | .withdrawingSlot => .cutting
      | a => a }

/-- A grant (R121): the width comes from the lot copy and the latched temperature (R128 to R130). -/
def grant (s : State) (i : Site) (attempt : Nat) : State :=
  let width := pulseWidth s.lot.profile s.touchdown.latchedTemp attempt
  let r := s.rail
  let s1 := setRail s
    { r with
      slotsInUse := r.slotsInUse + 1
      lastGranted := i
      waiting := r.waiting.set i none
      pulses := r.pulses.set i (some width) }
  modifyChannel s1 i fun c => countGrant c attempt

/-- A slot may be granted: one is free and the hold is clear (R122). -/
def slotFree (r : RailController) : Bool := decide (r.slotsInUse < r.slotTotal) && !r.hold

/-- One site of a scan: granted when it waits and a slot may be granted (R122). -/
def scanSite (s : State) (i : Site) : State :=
  match s.rail.waiting[i] with
  | some attempt => if slotFree s.rail then grant s i attempt else s
  | none => s

/-- The order of a scan: from the site after the last-granted one, up by one, wrapping, all sixteen once (R122). -/
def scanOrder (last : Site) : List Site := Config.allSites.map fun k => last + 1 + k

/-- The round-robin scan; the order is the one it began with (R122). -/
def scan (s : State) : State := forSites (scanOrder s.rail.lastGranted) scanSite s

/-- The rail is switched off a site's probe and its slot freed (R125, R126). -/
def freeSlot (r : RailController) (i : Site) : RailController :=
  { r with slotsInUse := r.slotsInUse - 1, pulses := r.pulses.set i none }

/-- Steps 1 to 4 of a pulse end or a cut: the slot is freed, the channel's die armed becomes no, and the pulse is counted
to the mirror writer (R125, R126). -/
def stopPulse (s : State) (i : Site) : State :=
  let s1 := setRail s (freeSlot s.rail i)
  let s2 := modifyChannel s1 i fun c => { c with dieArmed := false }
  setMirror s2 (countPulse s2.mirror)

/-- SLOT_REQUEST (R120): granted at once, or the site joins the waiting set. -/
def execSlotRequest (i : Site) (s : State) : Host.Outcome State Fault Refusal :=
  .next
    (if (channelOf s i).activity = .askingSlot then
       let attempt := (channelOf s i).attempt
       if slotFree s.rail ∧ waitingSize s.rail = 0 then grant s i attempt
       else
         setActivity (setRail s { s.rail with waiting := s.rail.waiting.set i (some attempt) }) i .awaitingSlot
     else s)

/-- SLOT_WITHDRAWAL (R123): the site leaves the waiting set, with no scan, and its channel goes on under R111. -/
def execSlotWithdrawal (i : Site) (s : State) : Host.Outcome State Fault Refusal :=
  .next
    (if (channelOf s i).activity = .withdrawingSlot then
       dispose (setRail s { s.rail with waiting := s.rail.waiting.set i none }) i
     else s)

/-- PULSE_END (R125): a channel that waits for its pulse goes on to its verify read (R103); one whose cut is on its way
does not (R127). -/
def execPulseEnd (i : Site) (s : State) : Host.Outcome State Fault Refusal :=
  .next
    (match s.rail.pulses[i] with
     | none => s
     | some _ =>
       let s1 := stopPulse s i
       let s2 := if (channelOf s i).activity = .pulsing then setActivity s1 i (.naming .verifyPoint) else s1
       scan s2)

/-- PULSE_CUT (R126): a cut that finds no pulse does nothing at the rail (R127); the channel then goes on under R111. -/
def execPulseCut (i : Site) (s : State) : Host.Outcome State Fault Refusal :=
  .next
    (if (channelOf s i).activity = .cutting then
       let s1 := if (s.rail.pulses[i]).isSome then scan (stopPulse s i) else s
       dispose s1 i
     else s)

/-! ## The temperature hold (R117, R131) -/

/-- A conversion's result, limited to the range of a reading (R117). -/
def limitReading (output : Int) : Int := clampInt (-4096) 4095 output

/-- The trip value as used (R131). -/
def tripValue (s : State) : Int := clampInt (-640) 2400 (readRam s atTripTemp).toInt

/-- The comparison of a new reading with the trip value (R131). -/
def decideHold (s : State) : State :=
  let trip := tripValue s
  if trip ≤ s.reading then
    (if s.rail.hold then s else raise (setRail s { s.rail with hold := true }) .tempHold)
  else if s.reading < trip - 32 then
    (if s.rail.hold then scan (setRail s { s.rail with hold := false }) else s)
  else s

/-- TEMPERATURE_READING (R117, R131, R134, R181): a reading completed during a soft reset, or in a start-up before its zeroing
is complete, makes no hold decision; the first reading after the zeroing makes one and lets the start-up go on. -/
def execTemperatureReading (conversion : Conversion) (s : State) : Host.Outcome State Fault Refusal :=
  .next
    (let s1 : State := { s with reading := limitReading conversion.output }
     match s.phase with
     | .softReset => s1
     | .startupWaiting => if conversion.whileZeroing then s1 else { decideHold s1 with phase := .startupReady }
     | .startupReady => decideHold s1
     | .running => decideHold s1)

/-! ## The derivation unit (R34 to R36) -/

/-- The oldest waiting request begins; the lot number is taken now (R32, R35). -/
def beginNextKey (l : LotController) (d : DerivationUnit) : DerivationUnit :=
  match d.waiting with
  | [] => { d with inProgress := none }
  | r :: rest =>
    { d with
      waiting := rest
      inProgress := some { site := r.site, index := r.index, lotNumber := l.number, discarded := false } }

/-- KEY_REQUEST (R35): begun at once, or joined to the end of the waiting requests. -/
def execKeyRequest (i : Site) (s : State) : Host.Outcome State Fault Refusal :=
  .next
    (match (channelOf s i).activity, (channelOf s i).bound with
     | .askingKey, some b =>
       let d := { s.derivation with waiting := s.derivation.waiting ++ [{ site := i, index := b.index }] }
       let d := if s.derivation.inProgress.isNone then beginNextKey s.lot d else d
       setActivity (setDerivation s d) i .awaitingKey
     | _, _ => s)

/-- KEY_DELIVERY (R34, R36): the computation ends, its key is delivered or discarded, and the next request begins. -/
def execKeyDelivery (s : State) : Host.Outcome State Fault Refusal :=
  .next
    (match s.derivation.inProgress with
     | none => s
     | some job =>
       let s1 := setDerivation s (beginNextKey s.lot s.derivation)
       if !job.discarded ∧ (channelOf s job.site).activity = .awaitingKey then
         takeKey s1 job.site (deriveKey s.derivation.secret job.lotNumber (natWord job.index))
       else s1)

/-- The withdrawal of a site's key request: removed from the waiting ones, or marked for discard (R36). -/
def withdrawKey (d : DerivationUnit) (i : Site) : DerivationUnit :=
  { d with
    waiting := d.waiting.filter fun r => r.site != i
    inProgress := d.inProgress.map fun j => if j.site = i then { j with discarded := true } else j }

/-- KEY_WITHDRAWAL (R36): the request is withdrawn and the channel goes on under R111. -/
def execKeyWithdrawal (i : Site) (s : State) : Host.Outcome State Fault Refusal :=
  .next
    (if (channelOf s i).activity = .withdrawingKey then dispose (setDerivation s (withdrawKey s.derivation i)) i else s)

end Sys2Proof.Machine
end

