-- ==== Sys2Proof/Machine/Requests.lean ====
section
/-!
DEFINITION. The request unit (R164 to R173) and what each request does when it is accepted. A request is accepted, acts and
is answered within one command, but for the two of R172 (notes/assumptions/5.md).
-/

namespace Sys2Proof.Machine

/-! ## Examination and answer -/

/-- The posted sequence P (R165). -/
def postedSequence (s : State) : Half := (readRam s atPosted).setWidth 16

/-- The eight parameter words, copied at acceptance (R166). -/
def slotParams (s : State) : List Word := (List.range 8).map fun k => readRam s (atParams + 4 * k)

/-- The slot holds a new request: the posted sequence is the next one (R165). -/
def slotIsNew (s : State) : Bool := decide (postedSequence s = s.requests.lastAnswered + 1)

/-- The request unit may examine the slot: it is not busy, and no start-up or soft reset is in progress (R164, R165,
R173). -/
def mayExamine (s : State) : Bool := decide (s.phase = .running) && !s.requests.busy

/-- Acceptance of a request of code 1..9 (R166). -/
def accept (s : State) : State :=
  setRequests s
    { s.requests with
      busy := true
      inProgress :=
        some { code := readRam s atRequestCode, params := slotParams s, sequence := postedSequence s } }

/-- The answer word: answered sequence in bits 0..15, answer code in bits 16..23 (spec/09 section 9.5). DESIGN CHOICE: bits
24..31, which the layout does not name, are written 0 (notes/assumptions/27.md). -/
def answerWord (sequence : Half) (code : AnswerCode) : Word := sequence.setWidth 32 ||| (code.code <<< 16)

/-- Write an answer: the result words, the detail word, then the answer word (R170). -/
def writeAnswer (s : State) (sequence : Half) (code : AnswerCode) (detail : Word) (results : List Word) : State :=
  writeRam (writeRam (writeRamWords s atResults results) atDetail detail) atAnswer (answerWord sequence code)

/-- The answer to the request in progress (R170): the last answered sequence becomes its sequence, REQUEST_DONE is raised,
and busy is cleared. -/
def answer (s : State) (code : AnswerCode) (detail : Word) (results : List Word) : State :=
  match s.requests.inProgress with
  | none => s
  | some r =>
    let s1 := writeAnswer s r.sequence code detail results
    raise (setRequests s1 { s1.requests with lastAnswered := r.sequence, busy := false, inProgress := none }) .requestDone

/-- An answer that sets no busy: UNKNOWN and SEQUENCE (R167, R168). -/
def answerAtOnce (s : State) (code : AnswerCode) (detail : Word) : State :=
  let p := postedSequence s
  let s1 := writeAnswer s p code detail []
  raise (setRequests s1 { s1.requests with lastAnswered := p }) .requestDone

/-- Parameter word `k` of the request in progress. -/
def paramWord (s : State) (k : Nat) : Word :=
  match s.requests.inProgress with
  | none => 0
  | some r => r.params.getD k 0

/-! ## The lot controller's requests -/

/-- The checks of OPEN_LOT in order, with the answer of the first that fails (R3). -/
def openLotRefusal (s : State) : Option (AnswerCode × Word × List Word) :=
  let first := readRam s atLotFirst
  let last := readRam s atLotLast
  let number := readRam s atLotProfile
  let stored := readProfile s number.toNat
  let capacity := readRam s atRailCapacity
  let fault := faultCode (usedProfile stored) (usedCapacity capacity)
  if s.lot.state ≠ .noLot then some (.badState, 1, [])
  else if s.derivation.state ≠ .sealed then some (.badState, 2, [])
  else if readRam s atLotNumber = 0 then some (.badParameter, 1, [])
  else if last.toNat < first.toNat then some (.badParameter, 2, [])
  else if 0xFFFFFF < last.toNat then some (.badParameter, 3, [])
  else if 7 < number.toNat then some (.badParameter, 4, [])
  else if fault ≠ 0 then some (.badParameter, 5, [natWord fault, natWord (clampMask stored capacity)])
  else none

/-- The lot that an OPEN_LOT opens (R4, R67). -/
def openedLot (s : State) : LotController :=
  let first := (readRam s atLotFirst).toNat
  { state := .opened
    number := readRam s atLotNumber
    first := first
    last := (readRam s atLotLast).toNat
    profile := usedProfile (readProfile s (readRam s atLotProfile).toNat)
    nextIndex := first
    committed := 0
    spoiled := 0
    freshBound := 0
    resumeList := []
    closureList := [] }

/-- OPEN_LOT as accepted (R3, R4, R67). -/
def openLot (s : State) : State :=
  match openLotRefusal s with
  | some (code, detail, results) => answer s code detail results
  | none =>
    let stored := readProfile s (readRam s atLotProfile).toNat
    let capacity := readRam s atRailCapacity
    let lot := openedLot s
    let total := slotTotalOf (usedCapacity capacity) lot.profile.draw
    let s1 := setRail (setLot s lot) { s.rail with slotTotal := total }
    answer s1 .done (natWord (clampMask stored capacity)) [natWord total, natWord (lot.last - lot.first + 1)]

/-- The closing steps (R20): the list is spoiled, the summary written, the CLOSE_LOT answered, LOT_CLOSED raised, and the
lot state becomes NO_LOT. -/
def closingSteps (s : State) : State :=
  let s1 := setLot s (spoilList s.lot)
  let s2 := writeSummary s1 .request
  let l := s2.lot
  let s3 := answer s2 .done 0
    [natWord l.nextIndex, natWord l.committed, natWord l.spoiled, natWord l.closureList.length]
  let s4 := raise s3 .lotClosed
  setLot s4 { s4.lot with state := .noLot }

/-- CLOSE_LOT as accepted (R18). -/
def closeLot (s : State) : State :=
  match s.lot.state with
  | .noLot => answer s .badState 0 []
  | .draining => s
  | .opened =>
    match s.touchdown.state with
    | .idle => closingSteps s
    | .waitLift => closingSteps s
    | .settling => setLot s { s.lot with state := .draining }
    | .active => setLot s { s.lot with state := .draining }

/-- SPOIL_INDEX as accepted (R16). -/
def spoilIndex (s : State) : State :=
  let index := paramWord s 0
  if s.lot.state = .noLot then answer s .badState 0 []
  else if 0xFFFFFF < index.toNat then answer s .badParameter 0 []
  else
    match entryOf s.lot index.toNat with
    | none => answer s .notHeld 0 []
    | some e =>
      match e.claimedBy with
      | some site => answer s .inUse (natWord site.val) []
      | none =>
        let lot := spoilListed s.lot index.toNat
        answer (setLot s lot) .done SpoilCause.byRequest.code [index, natWord lot.spoiled]

/-- LIST_RESUME as accepted (R17). -/
def listResume (s : State) : State :=
  if s.lot.state = .noLot then answer s .badState 0 []
  else answer (writeResumeCopy s) .done 0 [natWord s.lot.resumeList.length]

/-! ## The other requests -/

/-- VALIDATE_PROFILE as accepted (R66). -/
def validateProfile (s : State) : State :=
  let number := paramWord s 0
  if 7 < number.toNat then answer s .badParameter 1 []
  else
    let stored := readProfile s number.toNat
    let used := usedProfile stored
    let word := readRam s atRailCapacity
    let capacity := usedCapacity word
    let fault := faultCode used capacity
    answer s .done number
      [natWord fault, natWord (clampMask stored word),
       if fault = 0 then natWord (slotTotalOf capacity used.draw) else 0,
       if fault = 1 ∨ fault = 2 then 0 else natWord (spanFirst used)]

/-- The secret in the staging area (spec/09 section 9.2). -/
def stagedSecret (s : State) : Secret :=
  { m0 := readRam s atStaging, m1 := readRam s (atStaging + 4), m2 := readRam s (atStaging + 8),
    m3 := readRam s (atStaging + 12) }

/-- The all-zero secret. -/
def zeroSecret : Secret := { m0 := 0, m1 := 0, m2 := 0, m3 := 0 }

/-- LOAD_SECRET as accepted (R25, R26, R27): the staging words are read, then zeroed whatever the answer. -/
def loadSecret (s : State) : State :=
  let secret := stagedSecret s
  let s1 := zeroRam s atStaging 16
  let code := s.derivation.state.code
  if !s.straps.secretLoad then answer s1 .strap code []
  else if s.derivation.state = .sealed then answer s1 .badState 2 []
  else if secret = zeroSecret then answer s1 .badParameter code []
  else
    let check := checkValueOf secret
    let s2 := publishSecretState
      (setDerivation s1 { s1.derivation with secret := secret, state := .loaded, checkValue := check })
    answer s2 .done (if s.derivation.state = .loaded then 1 else 0) [check]

/-- SEAL_SECRET as accepted (R28). -/
def sealSecret (s : State) : State :=
  if s.derivation.state = .loaded then
    answer (publishSecretState (setDerivation s { s.derivation with state := .sealed })) .done 0 [s.derivation.checkValue]
  else answer s .badState s.derivation.state.code []

/-- Send an interruption to every channel that is not DONE (R79, R82). -/
def interruptWorking (s : State) (reason : InterruptReason) : State :=
  forSites Config.allSites
    (fun s i =>
      if (channelOf s i).state = .done then s else modifyChannel s i fun c => { c with interruptSent := some reason })
    s

/-- ABORT_TOUCHDOWN as accepted (R82): in ACTIVE it stays in progress. -/
def abortTouchdown (s : State) : State :=
  if s.touchdown.state = .active then
    match s.touchdown.endReason with
    | some _ => setTouchdown s { s.touchdown with abortPending := true }
    | none =>
      interruptWorking (setTouchdown s { s.touchdown with abortPending := true, endReason := some .aborted }) .aborted
  else answer s .badState s.touchdown.state.code []

/-- The link counters of every port and the touchdown counters set to 0 (R153). -/
def zeroCounters (s : State) : State :=
  let s1 := forSites Config.allSites (fun s i => modifyPort s i fun p => { p with counters := LinkCounters.zero }) s
  setTouchdown s1 { s1.touchdown with total := 0, bounced := 0, planless := 0, overlapped := 0 }

/-- CLEAR_COUNTERS as accepted (R153). -/
def clearCounters (s : State) : State := answer (zeroCounters s) .done 0 []

/-! ## The examination of the slot -/

/-- The owning block carries out the request just accepted (R166). -/
def carryOut (code : Word) (s : State) : State :=
  match code.toNat with
  | 1 => openLot s
  | 2 => closeLot s
  | 3 => spoilIndex s
  | 4 => listResume s
  | 5 => validateProfile s
  | 6 => loadSecret s
  | 7 => sealSecret s
  | 8 => abortTouchdown s
  | 9 => clearCounters s
  | _ => s

/-- A request code that names a request (R166, R167). -/
def knownCode (code : Word) : Bool := decide (1 ≤ code.toNat) && decide (code.toNat ≤ 9)

/-- One examination of the slot (R165): nothing new, a request accepted and carried out, UNKNOWN or SEQUENCE. -/
def examineOnce (s : State) : State :=
  if postedSequence s = s.requests.lastAnswered then s
  else if slotIsNew s then
    let code := readRam s atRequestCode
    if knownCode code then carryOut code (accept s) else answerAtOnce s .unknown code
  else answerAtOnce s .sequence (s.requests.lastAnswered.setWidth 32)

/-- When busy has been cleared after an answer and pending-notify is set, the flag is cleared and the slot examined at
once (R171). -/
def reexamine (s : State) : State :=
  if !s.requests.busy && s.requests.pendingNotify then
    examineOnce (setRequests s { s.requests with pendingNotify := false })
  else s

/-- The examination of the slot with the further one that an answer leads to (R165, R171). UNKNOWN and SEQUENCE leave
pending-notify as it is. -/
def examine (s : State) : State :=
  if slotIsNew s && knownCode (readRam s atRequestCode) then reexamine (examineOnce s) else examineOnce s

/-- A notification (R165): a NOTIFY write or a settle expiry's. -/
def notifyUnit (s : State) : State :=
  if mayExamine s then examine s else setRequests s { s.requests with pendingNotify := true }

/-- The examination at the end of a start-up or a soft reset (R164, R173). -/
def examineIfPending (s : State) : State :=
  if s.requests.pendingNotify then examine (setRequests s { s.requests with pendingNotify := false }) else s

/-! ## The commands of the request unit -/

/-- The request unit may take a new request of this code from the slot. -/
def takesRequest (s : State) (code : Word) : Bool := mayExamine s && slotIsNew s && decide (readRam s atRequestCode = code)

/-- NOTIFY (R165, R174): any value written is one notification. -/
def execNotify (_value : Word) (s : State) : Host.Outcome State Fault Refusal := .next (notifyUnit s)

/-- OPEN_LOT (R3, R4): accepted from the slot, carried out and answered. -/
def execOpenLot (s : State) : Host.Outcome State Fault Refusal :=
  .next (if takesRequest s 1 then reexamine (openLot (accept s)) else s)

/-- CLOSE_LOT (R18). -/
def execCloseLot (s : State) : Host.Outcome State Fault Refusal :=
  .next (if takesRequest s 2 then reexamine (closeLot (accept s)) else s)

/-- SPOIL_INDEX (R16). -/
def execSpoilIndex (s : State) : Host.Outcome State Fault Refusal :=
  .next (if takesRequest s 3 then reexamine (spoilIndex (accept s)) else s)

/-- LIST_RESUME (R17). -/
def execListResume (s : State) : Host.Outcome State Fault Refusal :=
  .next (if takesRequest s 4 then reexamine (listResume (accept s)) else s)

/-- VALIDATE_PROFILE (R66). -/
def execValidateProfile (s : State) : Host.Outcome State Fault Refusal :=
  .next (if takesRequest s 5 then reexamine (validateProfile (accept s)) else s)

/-- LOAD_SECRET (R25). -/
def execLoadSecret (s : State) : Host.Outcome State Fault Refusal :=
  .next (if takesRequest s 6 then reexamine (loadSecret (accept s)) else s)

/-- SEAL_SECRET (R28). -/
def execSealSecret (s : State) : Host.Outcome State Fault Refusal :=
  .next (if takesRequest s 7 then reexamine (sealSecret (accept s)) else s)

/-- ABORT_TOUCHDOWN (R82). -/
def execAbortTouchdown (s : State) : Host.Outcome State Fault Refusal :=
  .next (if takesRequest s 8 then reexamine (abortTouchdown (accept s)) else s)

/-- CLEAR_COUNTERS (R153). -/
def execClearCounters (s : State) : Host.Outcome State Fault Refusal :=
  .next (if takesRequest s 9 then reexamine (clearCounters (accept s)) else s)

/-- UNKNOWN (R167): a new request whose code is 0 or above 9. -/
def execUnknown (s : State) : Host.Outcome State Fault Refusal :=
  .next
    (if mayExamine s && slotIsNew s && !knownCode (readRam s atRequestCode) then
       answerAtOnce s .unknown (readRam s atRequestCode)
     else s)

end Sys2Proof.Machine
end

