-- ==== Sys2Proof/Machine/Touchdown.lean ====
section
/-!
DEFINITION. The touchdown controller (spec/05): the prober lines, the settle, the latch moment, taking and finishing a
plan frame, and the commands of the touchdown.
-/

namespace Sys2Proof.Machine

/-! ## After a touchdown event -/

/-- A DRAINING lot closes at this touchdown event (R19), and the slot is examined when a notification waited (R171). -/
def closeIfDraining (s : State) : State :=
  if s.lot.state = .draining then reexamine (closingSteps s) else s

/-! ## The prober lines (R70) -/

/-- The settle delay as used (R72). -/
def settleDelay (s : State) : Nat := clampNat 0 10000 (readRam s atSettleDelay).toNat

/-- A rise in IDLE begins a touchdown (R72). -/
def beginTouchdown (s : State) : State :=
  let total := saturatingInc s.touchdown.total
  setTouchdown s
    { s.touchdown with
      total := total
      number := total
      endReason := none
      abortPending := false
      holdoff := true
      state := .settling
      settleTimer := some (settleDelay s) }

/-- A rise as the controller takes it (R70, R72, R81). DEDUCED: a rise in ACTIVE is overlapped too when it follows a fall that
was the level alone, every channel being in DONE and the last SITE_DONE still to come (notes/assumptions/9.md). DESIGN CHOICE:
in SETTLING and WAIT_LIFT, where R70 and R85 have no rise, it is the level alone (notes/assumptions/16.md). -/
def takeRise (s : State) : State :=
  let s1 := setTouchdown s { s.touchdown with contactLevel := true }
  match s.touchdown.state with
  | .idle => beginTouchdown s1
  | .active => setTouchdown s1 { s1.touchdown with overlapped := saturatingInc s1.touchdown.overlapped }
  | .settling => s1
  | .waitLift => s1

/-- A fall in SETTLING (R73). -/
def bounce (s : State) : State :=
  closeIfDraining
    (setTouchdown s
      { s.touchdown with
        settleTimer := none
        bounced := saturatingInc s.touchdown.bounced
        holdoff := false
        state := .idle })

/-- A fall in ACTIVE (R79): an early lift while some channel is not DONE and no interruption has been sent; otherwise the
level only. -/
def fallInActive (s : State) : State :=
  match s.touchdown.endReason with
  | some _ => s
  | none =>
    if allDone s then s
    else interruptWorking (setTouchdown s { s.touchdown with endReason := some .earlyLift }) .earlyLift

/-- A fall as the controller takes it (R70, R73, R79, R85). -/
def takeFall (s : State) : State :=
  let s1 := setTouchdown s { s.touchdown with contactLevel := false }
  match s.touchdown.state with
  | .idle => s1
  | .settling => bounce s1
  | .active => fallInActive s1
  | .waitLift => setTouchdown s1 { s1.touchdown with state := .idle }

/-- CONTACT_RISE (R70): the line goes from deasserted to asserted; the controller takes it unless a start-up or a soft
reset is in progress (R69, R87). -/
def execContactRise (s : State) : Host.Outcome State Fault Refusal :=
  .next
    (if s.contactLine then s
     else
       let s1 : State := { s with contactLine := true }
       if s.phase = .running then takeRise s1 else s1)

/-- CONTACT_FALL (R70): the line goes from asserted to deasserted. -/
def execContactFall (s : State) : Host.Outcome State Fault Refusal :=
  .next
    (if s.contactLine then
       let s1 : State := { s with contactLine := false }
       if s.phase = .running then takeFall s1 else s1
     else s)

/-! ## The latch moment (R74) -/

/-- The fitted sites (R174). -/
def fittedSites (s : State) : SiteSet := BitVec.allOnes 16 >>> (16 - fittedCount s)

/-- Steps 1 and 2: the timer stops, the temperature and the fitted sites' contact sense are captured together (R74). -/
def latch (s : State) (contactSense : SiteSet) : State :=
  setTouchdown s
    { s.touchdown with
      settleTimer := none
      latchedTemp := s.reading
      latchedContact := contactSense &&& fittedSites s }

/-- A plan entry as read (R75, spec/09 section 9.4). -/
structure PlanEntry where
  action : Word
  dieX : Half
  dieY : Half
  deriving DecidableEq, Repr

/-- Read plan entry `i` of a frame (R158). -/
def readPlanEntry (s : State) (f : Fin 2) (i : Site) : PlanEntry :=
  { action := readRam s (atPlanEntry f i)
    dieX := (readRam s (atPlanEntry f i + 4)).setWidth 16
    dieY := (readRam s (atPlanEntry f i + 8)).setWidth 16 }

/-- The die coordinates that a plan entry holds (R158). -/
def planCoordinates (s : State) (f : Fin 2) (i : Site) : Half × Half :=
  let e := readPlanEntry s f i
  (e.dieX, e.dieY)

/-- A channel as a take starts it: nothing it held before passes into the new touchdown (R91); `records` are the coordinates of
the records that stand in the frames until the site writes there again (R160). -/
def startedChannel (records : Vector (Option (Half × Half)) 2) (e : PlanEntry) (waferId : Word) (contact : Bool) : SiteChannel :=
  { SiteChannel.afterPowerOn with
    state := .probe, action := e.action, dieX := e.dieX, dieY := e.dieY, waferId := waferId, contact := contact,
    recordCoordinates := records }

/-- Start one channel: NOT_FITTED beyond the fitted sites (R77), else the tests of R92 and the IDENT. A site of `late` that
comes to the lot check makes it after this step (R5). -/
def startSite (entries : Site → PlanEntry) (late : SiteSet) (s : State) (i : Site) : State :=
  let fitted := decide (i.val < fittedCount s)
  let contact := fitted && s.touchdown.latchedContact.getLsbD i.val
  let s1 := setChannel s i (startedChannel (channelOf s i).recordCoordinates (entries i) s.touchdown.waferId contact)
  let action := (entries i).action
  if !fitted then endDie s1 i .notFitted .none
  else if action ≠ 1 ∧ action ≠ 2 then endDie s1 i .skipped .none
  else if !contact then endDie s1 i .noContact .none
  else if late.getLsbD i.val then setActivity s1 i .starting
  else lotCheck s1 i

/-- The lot number written at a take (R76). -/
def lotNumberAtTake (l : LotController) : Word := if l.state = .noLot then 0 else l.number

/-- The take of an ARMED frame (R76): the take fields, then ACTIVE, then the controller's own state. -/
def takeFrame (s : State) (f : Fin 2) : State :=
  let base := atFrame f
  let tag := readRam s (base + 4)
  let wafer := readRam s (base + 8)
  let s1 := writeRamWords s (base + 0x0C)
    [s.touchdown.number, signedWord s.touchdown.latchedTemp, lotNumberAtTake s.lot]
  let s2 := writeRam s1 base frameActive
  setTouchdown s2
    { s2.touchdown with hostTag := tag, waferId := wafer, activeFrame := some f, takePointer := f + 1, state := .active }

/-- No plan (R78). -/
def noPlan (s : State) : State :=
  let s1 := raise s .noPlan
  closeIfDraining
    (setTouchdown s1
      { s1.touchdown with
        planless := saturatingInc s1.touchdown.planless
        holdoff := false
        state := .waitLift })

/-- Step 4: the frame named by the take pointer is considered (R75). -/
def considerFrame (s : State) (late : SiteSet) : State :=
  let f := s.touchdown.takePointer
  if readRam s (atFrame f) = frameArmed then
    forSites Config.allSites (startSite (readPlanEntry s f) late) (takeFrame s f)
  else noPlan s

/-- SETTLE_EXPIRY (R74): the latch moment, while the settle timer runs. -/
def execSettleExpiry (moment : LatchMoment) (s : State) : Host.Outcome State Fault Refusal :=
  .next
    (if s.touchdown.state = .settling ∧ s.touchdown.settleTimer.isSome ∧ s.phase = .running then
       considerFrame (notifyUnit (latch s moment.contactSense)) moment.late
     else s)

/-! ## Finishing the frame (R80, R83, R84) -/

/-- The watermark (R83). -/
def watermark (l : LotController) : List Word :=
  if l.state = .noLot then [0, 0, 0] else [natWord l.nextIndex, natWord l.committed, natWord l.spoiled]

/-- The words of a finished frame, in order: end reason, watermark, host tag, DONE (R80 steps 1 to 4). -/
def writeFinish (s : State) (f : Fin 2) : State :=
  let base := atFrame f
  let s1 := writeRamWords s (base + 0x18) (endReasonCode s.touchdown.endReason :: watermark s.lot)
  writeRam (writeRam s1 (base + 4) s.touchdown.hostTag) base frameDone

/-- The answer to an abort when the touchdown leaves ACTIVE (R84). -/
def answerAbort (s : State) (f : Fin 2) : State :=
  if s.touchdown.abortPending then
    let s1 := answer s .done (endReasonCode s.touchdown.endReason) [natWord f.val, s.touchdown.number]
    setTouchdown s1 { s1.touchdown with abortPending := false }
  else s

/-- Step 6 of R80; the entries into DONE that were still to be taken are taken with the last one
(notes/assumptions/8.md). DESIGN CHOICE: the take record, which is kept until this finish, stands as it was
(notes/assumptions/30.md). -/
def leaveActive (s : State) : State :=
  let s1 := forSites Config.allSites
    (fun s i => if (channelOf s i).activity = .finished then setActivity s i .resting else s) s
  setTouchdown s1
    { s1.touchdown with
      holdoff := false
      activeFrame := none
      state := if s1.touchdown.contactLevel then .waitLift else .idle }

/-- The last site has reached DONE (R80): the frame is finished, FRAME_DONE is raised, ACTIVE is left; then an abort is
answered (R84), a DRAINING lot closes (R19), and the slot is examined when a notification waited (R171). -/
def finishFrame (s : State) (f : Fin 2) : State :=
  let s1 := leaveActive (raise (writeFinish s f) .frameDone)
  let s2 := answerAbort s1 f
  if s2.lot.state = .draining then reexamine (closingSteps s2)
  else if s1.touchdown.abortPending then reexamine s2
  else s2

/-- SITE_DONE (R80): the controller takes a channel's entry into DONE, and the last one finishes the frame. -/
def execSiteDone (i : Site) (s : State) : Host.Outcome State Fault Refusal :=
  .next
    (if s.touchdown.state = .active ∧ (channelOf s i).activity = .finished then
       let s1 := setActivity s i .resting
       match s1.touchdown.activeFrame with
       | some f => if allDone s1 then finishFrame s1 f else s1
       | none => s1
     else s)

end Sys2Proof.Machine
end

