-- ==== Sys2Proof/Machine/Reset.lean ====
section
/-!
DEFINITION. Power-on reset, the start-up, and the soft reset (R181, R182).
-/

namespace Sys2Proof.Machine

/-- Write the identity block: every field but the signature in ascending order, the check value before the secret state,
the ready signature last (R159). -/
def writeIdentity (s : State) : State :=
  let s1 := writeRamWords s atPartCode [partCode, 1, natWord (fittedCount s)]
  let s2 := publishSecretState s1
  let s3 := writeRamWords s2 atLayoutVersion (1 :: List.replicate 9 0)
  writeRam s3 atSignature readySignature

/-- The touchdown controller reads the present level of CONTACT as its level and takes no rise from it (R88). -/
def followContact (s : State) : State := setTouchdown s { s.touchdown with contactLevel := s.contactLine }

/-- POWER_ON_RESET (R181): every block takes its power-on values, the straps are sampled, the RAM is zeroed, and the start-up
waits for its first reading after the zeroing. The level of the CONTACT input is the prober's. DESIGN CHOICE: the words read 0
from this step on, and readings may still find the zeroing going on (notes/assumptions/31.md). -/
def execPowerOnReset (population : BitVec 4) (secretLoad : Bool) (s : State) : Host.Outcome State Fault Refusal :=
  .next
    { State.reset with
      straps := { population := population, secretLoad := secretLoad }
      contactLine := s.contactLine
      pending := s.pending }

/-- STARTUP_END (R181 steps 3 and 4), once the first reading after the zeroing has been taken. -/
def execStartupEnd (s : State) : Host.Outcome State Fault Refusal :=
  .next
    (if s.phase = .startupReady then
       examineIfPending (followContact { writeIdentity s with phase := .running })
     else s)

/-! ## Soft reset (R182) -/

/-- The request in progress is discarded: answer code 0 with the posted sequence, no detail and no results (R173). -/
def discardRequest (s : State) : State :=
  let p := postedSequence s
  setRequests (writeRam s atAnswer (answerWord p .none))
    { lastAnswered := p, busy := false, pendingNotify := false, inProgress := none }

/-- Every pulse is cut and every slot request withdrawn, with no scan; the hold and S are kept (R134). -/
def cutRail (r : RailController) : RailController :=
  { r with
    slotsInUse := 0
    waiting := Vector.replicate 16 none
    lastGranted := 15
    pulses := Vector.replicate 16 none }

/-- The touchdown controller at a soft reset; its CONTACT level is read again at the end (R87, R88). -/
def resetTouchdown (t : TouchdownController) : TouchdownController :=
  { TouchdownController.afterPowerOn with contactLevel := t.contactLevel }

/-- Step 1: what is outstanding is discarded, cut, abandoned and withdrawn (R182). -/
def resetStepOne (s : State) : State :=
  let s1 := discardRequest s
  let s2 := setRail s1 (cutRail s1.rail)
  let s3 := setDerivation s2 { s2.derivation with waiting := [], inProgress := none }
  setTouchdown { s3 with ports := Vector.replicate 16 LinkPort.afterPowerOn } (resetTouchdown s3.touchdown)

/-- A claim or report in flight is taken under its own rule; the answer reaches no channel, but a fresh index so granted
is then held by its site (R22). -/
def takeInFlight (s : State) (i : Site) : State :=
  let c := channelOf s i
  let s1 := setActivity s i .resting
  match c.activity with
  | .claimingFresh =>
    let s2 := setLot s1 (afterFreshClaim s.lot)
    match freshAnswer s.lot with
    | .granted n => modifyChannel s2 i fun c => { c with bound := some { index := n, kind := .fresh } }
    | _ => s2
  | .claimingResume =>
    setLot s1 (afterResumeClaim s.lot (readbackIndex c.readback) c.waferId c.dieX c.dieY i)
  | .reporting r =>
    match c.bound with
    | none => s1
    | some b =>
      modifyChannel (setLot s1 (afterReport s.lot b c.waferId c.dieX c.dieY r)) i fun c => { c with bound := none }
  | _ => s1

/-- A site that holds a fresh index gives it up (R22 step 2). -/
def giveUpFresh (s : State) (i : Site) : State :=
  match (channelOf s i).bound with
  | some b =>
    match b.kind with
    | .fresh =>
      modifyChannel (setLot s (spoilFreshByReset s.lot b.index)) i fun c => { c with bound := none }
    | .resumed => s
  | none => s

/-- Step 2: an OPEN or DRAINING lot is closed with reason RESET (R22). -/
def resetClosure (s : State) (order : List Site) : State :=
  if s.lot.state = .noLot then s
  else
    let s1 := forSites (order ++ Config.allSites) takeInFlight s
    let s2 := setLot s1 (spoilList s1.lot)
    let s3 := forSites Config.allSites giveUpFresh s2
    let s4 := writeSummary s3 .reset
    setLot s4 { s4.lot with state := .noLot }

/-- Step 3: the channels are cleared, both frames are EMPTY, and the mirror is zeroed (R115, R161, R180). -/
def resetStepThree (s : State) : State :=
  let s1 := writeRam (writeRam s (atFrame 0) frameEmpty) (atFrame 1) frameEmpty
  let s2 := zeroRam s1 atMirror mirrorBytes
  { s2 with
    channels := Vector.replicate 16 SiteChannel.afterPowerOn
    mirror := MirrorWriter.afterReset }

/-- SOFT_RESET (R182 steps 1 to 4): no effect during a start-up or a soft reset (R175). -/
def execSoftReset (order : List Site) (s : State) : Host.Outcome State Fault Refusal :=
  .next
    (if s.phase = .running then
       { writeIdentity (resetStepThree (resetClosure (resetStepOne s) order)) with phase := .softReset }
     else s)

/-- SOFT_RESET_END (R182 steps 5 to 8). -/
def execSoftResetEnd (s : State) : Host.Outcome State Fault Refusal :=
  .next
    (if s.phase = .softReset then
       let s1 : State := { s with attention := 0 }
       let s2 := setRail s1 { s1.rail with hold := false }
       let s3 := raise (followContact s2) .resetDone
       examineIfPending { s3 with phase := .running }
     else s)

end Sys2Proof.Machine
end

