-- ==== Sys2Proof/Machine/Dispatch.lean ====
section
/-!
DEFINITION. The meaning of every command: one arm per constructor of `Instr`, each one direct call.
-/

namespace Sys2Proof.Machine

/-- The command's effect on everything but the queue. -/
def exec (i : Instr) (s : State) : Host.Outcome State Fault Refusal :=
  match i with
  | .powerOnReset population secretLoad => Sys2Proof.Machine.execPowerOnReset population secretLoad s
  | .startupEnd => Sys2Proof.Machine.execStartupEnd s
  | .softReset order => Sys2Proof.Machine.execSoftReset order s
  | .mirrorNow => Sys2Proof.Machine.execMirrorNow s
  | .interruptEnables enables => Sys2Proof.Machine.execInterruptEnables enables s
  | .notify value => Sys2Proof.Machine.execNotify value s
  | .attentionWrite value => Sys2Proof.Machine.execAttentionWrite value s
  | .registerWrite register value => Sys2Proof.Machine.execRegisterWrite register value s
  | .hostRamWrite offset lanes value => Sys2Proof.Machine.execHostRamWrite offset lanes value s
  | .openLot => Sys2Proof.Machine.execOpenLot s
  | .closeLot => Sys2Proof.Machine.execCloseLot s
  | .spoilIndex => Sys2Proof.Machine.execSpoilIndex s
  | .listResume => Sys2Proof.Machine.execListResume s
  | .validateProfile => Sys2Proof.Machine.execValidateProfile s
  | .loadSecret => Sys2Proof.Machine.execLoadSecret s
  | .sealSecret => Sys2Proof.Machine.execSealSecret s
  | .abortTouchdown => Sys2Proof.Machine.execAbortTouchdown s
  | .clearCounters => Sys2Proof.Machine.execClearCounters s
  | .unknown => Sys2Proof.Machine.execUnknown s
  | .contactRise => Sys2Proof.Machine.execContactRise s
  | .contactFall => Sys2Proof.Machine.execContactFall s
  | .settleExpiry moment => Sys2Proof.Machine.execSettleExpiry moment s
  | .siteDone site => Sys2Proof.Machine.execSiteDone site s
  | .interruption site => Sys2Proof.Machine.execInterruption site s
  | .freshClaim site => Sys2Proof.Machine.execFreshClaim site s
  | .resumeClaim site => Sys2Proof.Machine.execResumeClaim site s
  | .hold site => Sys2Proof.Machine.execHold site s
  | .release site => Sys2Proof.Machine.execRelease site s
  | .commit site => Sys2Proof.Machine.execCommit site s
  | .spoil site => Sys2Proof.Machine.execSpoil site s
  | .keyRequest site => Sys2Proof.Machine.execKeyRequest site s
  | .keyDelivery => Sys2Proof.Machine.execKeyDelivery s
  | .keyWithdrawal site => Sys2Proof.Machine.execKeyWithdrawal site s
  | .slotRequest site => Sys2Proof.Machine.execSlotRequest site s
  | .slotWithdrawal site => Sys2Proof.Machine.execSlotWithdrawal site s
  | .pulseEnd site => Sys2Proof.Machine.execPulseEnd site s
  | .pulseCut site => Sys2Proof.Machine.execPulseCut site s
  | .temperatureReading conversion => Sys2Proof.Machine.execTemperatureReading conversion s
  | .exchangeRequest site => Sys2Proof.Machine.execExchangeRequest site s
  | .responseComplete site bytes => Sys2Proof.Machine.execResponseComplete site bytes s
  | .responseTimeout site => Sys2Proof.Machine.execResponseTimeout site s
  | .drainEnd site => Sys2Proof.Machine.execDrainEnd site s
  | .mirrorIntervalExpiry => Sys2Proof.Machine.execMirrorIntervalExpiry s
  | .mirrorCountdownZero => Sys2Proof.Machine.execMirrorCountdownZero s
  | .mirrorWriteEnd early => Sys2Proof.Machine.execMirrorWriteEnd early s
  | .softResetEnd => Sys2Proof.Machine.execSoftResetEnd s

end Sys2Proof.Machine
end

