-- ==== Sys2Proof/Safety.lean ====
section
/-!
DEFINITION. The laws of the manual in the terms that claims use: what holds of a state, what a command leaves alone, how an
answer stands in the slot, and what a safe run is.
-/

namespace Sys2Proof.Machine

/-! ## What a command leaves alone -/

/-- Outside the ranges given (start, length) every byte of the exchange RAM reads as before. -/
def ramOutside (s t : State) (ranges : List (Nat × Nat)) : Prop :=
  ∀ a, (∀ r ∈ ranges, a < r.1 ∨ r.1 + r.2 ≤ a) → readByte t.ram a = readByte s.ram a

/-- Every channel but that of the site is as before. -/
def sitesElse (s t : State) (i : Site) : Prop := ∀ j, j ≠ i → channelOf t j = channelOf s j

/-- Every port but that of the site is as before. -/
def portsElse (s t : State) (i : Site) : Prop := ∀ j, j ≠ i → portOf t j = portOf s j

/-- The answer fields of the request slot (spec/09 section 9.5). -/
abbrev answerFields : Nat × Nat := (0x68, 24)

/-- The result record of a site in the active frame; no bytes while no frame is active (R160, R163). -/
def recordBytes (s : State) (i : Site) : Nat × Nat :=
  match s.touchdown.activeFrame with
  | none => (0, 0)
  | some f => (0x1200 + 0x1000 * f.val + 64 * i.val, 64)

/-! ## Answers -/

/-- The answer of R170 stands in the slot, and the request unit has done with the request: the results named, the detail
word, the two fields of the answer word; a result word that is not named is as before. -/
def answered (s t : State) (sequence : Half) (code : AnswerCode) (detail : Word) (results : List Word) : Prop :=
  ((readRam t 0x7C).extractLsb' 0 16 = sequence ∧ (readRam t 0x7C).extractLsb' 16 8 = code.code.extractLsb' 0 8) ∧
    readRam t 0x68 = detail ∧
    (∀ k, k < 4 →
      readRam t (0x6C + 4 * k) = if k < results.length then results.getD k 0 else readRam s (0x6C + 4 * k)) ∧
    t.requests = { s.requests with lastAnswered := sequence, busy := false, inProgress := none }

/-- The request unit takes the posted request of this code: it is running and not busy, the posted sequence is the next
one, and the code word is this code (R165, R166). -/
def posted (s : State) (code : Word) : Prop :=
  s.phase = .running ∧ s.requests.busy = false ∧ postedSequence s = s.requests.lastAnswered + 1 ∧
    readRam s 0x44 = code

/-! ## What the part publishes -/

/-- The identity block of R159, with the secret state and the check value of `s`. -/
def identityWritten (s t : State) : Prop :=
  readRam t 0x00 = 0x7A4C5031 ∧ readRam t 0x04 = 0x5016 ∧ readRam t 0x08 = 1 ∧
    readRam t 0x0C = BitVec.ofNat 32 (s.straps.population.toNat + 1) ∧ readRam t 0x10 = s.derivation.state.code ∧
    readRam t 0x14 = s.derivation.checkValue ∧ readRam t 0x18 = 1 ∧
    ∀ a, 0x1C ≤ a → a < 0x40 → readByte t.ram a = 0

/-- The lot summary of R21 with this closure reason: the range, the counts and the closure list that the lot controller
keeps after the close. -/
def summaryWritten (t : State) (reason : Word) : Prop :=
  readRam t 0x200 = t.lot.number ∧ readRam t 0x204 = BitVec.ofNat 32 t.lot.first ∧
    readRam t 0x208 = BitVec.ofNat 32 t.lot.nextIndex ∧ readRam t 0x20C = BitVec.ofNat 32 t.lot.committed ∧
    readRam t 0x210 = BitVec.ofNat 32 t.lot.spoiled ∧ readRam t 0x214 = reason ∧
    readRam t 0x218 = BitVec.ofNat 32 t.lot.closureList.length ∧
    ∀ k, k < t.lot.closureList.length → k < 80 → readRam t (0x21C + 4 * k) = BitVec.ofNat 32 (t.lot.closureList.getD k 0)

/-- The bytes that a lot summary with `k` indices takes. -/
def summaryBytes (k : Nat) : Nat × Nat := (0x200, 28 + 4 * min k 80)

/-! ## How a site ends -/

/-- The result record of a site in the active frame, field by field (spec/09 section 9.4, R160): `c` is the channel as it
reached its outcome, `d` the disposition and `cause` the spoil cause. -/
def recordWritten (t : State) (i : Site) (c : SiteChannel) (d : Disposition) (cause : Option SpoilCause) : Prop :=
  ∀ (f : Fin 2) (r : Nat) (keyed : Bool), t.touchdown.activeFrame = some f →
    r = 0x1200 + 0x1000 * f.val + 64 * i.val →
    keyed = decide (c.outcome = some .provisioned ∨ c.outcome = some .resumed) →
    ((readRam t r).extractLsb' 0 8 = ((c.outcome.map Outcome.code).getD 0).extractLsb' 0 8 ∧
        (readRam t r).extractLsb' 8 8 = d.code.extractLsb' 0 8 ∧
        (readRam t r).extractLsb' 16 8 = ((cause.map SpoilCause.code).getD 0).extractLsb' 0 8) ∧
      (∀ k, k < 6 → (readRam t (r + 0x04)).getLsbD k =
        [c.bound.isSome, cause.isSome, c.figures.readbackBinding.isSome, keyed, c.figures.failingPosition.isSome,
          c.figures.imageLocked.isSome].getD k false) ∧
      readRam t (r + 0x08) = BitVec.ofNat 32 ((c.bound.map (·.index)).getD 0) ∧
      readRam t (r + 0x0C) = BitVec.ofNat 32 ((c.figures.readbackBinding.map Prod.fst).getD 0) ∧
      (readRam t (r + 0x10)).extractLsb' 0 8 = (c.figures.readbackBinding.map Prod.snd).getD 0 ∧
      readRam t (r + 0x14) = BitVec.ofNat 32 c.figures.blows ∧
      readRam t (r + 0x18) = BitVec.ofNat 32 c.figures.pulses ∧
      readRam t (r + 0x1C) = BitVec.ofNat 32 c.figures.rePulses ∧
      ((readRam t (r + 0x20)).extractLsb' 0 8 = (if keyed then (c.target.getD 0).extractLsb' 184 8 else 0) ∧
        (readRam t (r + 0x20)).extractLsb' 8 8 = (if keyed then (c.target.getD 0).extractLsb' 176 8 else 0)) ∧
      readRam t (r + 0x24) = BitVec.ofNat 32 ((c.figures.failingPosition.map fun p => 16 * c.baseWord + p).getD 0) ∧
      readRam t (r + 0x28) = BitVec.ofNat 32 c.figures.linkRetries ∧
      readRam t (r + 0x2C) = (if c.figures.imageLocked = some true then 1 else 0) ∧
      ∀ k, 0x30 ≤ k → k < 0x40 → readByte t.ram (r + k) = 0

/-- The bits of a result record's words that the layout does not name are 0 (the model's choice, notes/assumptions/28.md). -/
def recordRestZero (t : State) (i : Site) : Prop :=
  ∀ (f : Fin 2) (r : Nat), t.touchdown.activeFrame = some f → r = 0x1200 + 0x1000 * f.val + 64 * i.val →
    (readRam t r).extractLsb' 24 8 = 0 ∧ (readRam t (r + 0x04)).extractLsb' 6 26 = 0 ∧
      (readRam t (r + 0x10)).extractLsb' 8 24 = 0 ∧ (readRam t (r + 0x20)).extractLsb' 16 16 = 0

/-- Steps 2 and 3 of R107 from the channel `c`: the record is written, with the coordinates of the plan copy (R183; where they
are held is the model's choice, notes/assumptions/29.md), the work is cleared, and DONE is entered. -/
def siteFinished (s t : State) (i : Site) (c : SiteChannel) (d : Disposition) (cause : Option SpoilCause) : Prop :=
  channelOf t i =
      { c with
        bound := none, target := none, remaining := [], owed := none, state := .done, activity := .finished
        recordCoordinates := Vector.ofFn fun f =>
          if s.touchdown.activeFrame = some f then some (c.dieX, c.dieY) else c.recordCoordinates[f] } ∧
    recordWritten t i c d cause ∧ ramOutside s t [recordBytes s i]

/-- A channel `c` that holds no index finishes with this outcome (R107, R108). -/
def diedWith (s t : State) (i : Site) (c : SiteChannel) (o : Outcome) (d : Disposition) : Prop :=
  siteFinished s t i { c with outcome := some o } d none

/-- A channel `c` that holds an index reaches this outcome and sends its report (R107 step 1). -/
def reported (s t : State) (i : Site) (c : SiteChannel) (o : Outcome) (r : Report) : Prop :=
  t.ram = s.ram ∧ channelOf t i = { c with outcome := some o, activity := .reporting r }

/-- The report that R111 decides for an interrupted channel. -/
def decided (c : SiteChannel) (r : Option Report) : Prop :=
  (c.bound = none → r = none) ∧
    ∀ b, c.bound = some b →
      (b.kind = .resumed → r = some .release) ∧
      (b.kind = .fresh → c.pulseGranted = false → r = some (.spoil .neverBurned)) ∧
      (b.kind = .fresh → c.pulseGranted = true → (∃ p ∈ c.remaining, p < 38) → r = some (.spoil .bindingCut)) ∧
      (b.kind = .fresh → c.pulseGranted = true → (∀ p ∈ c.remaining, 38 ≤ p) → r = some .hold)

/-- The report that the channel `c` owes is sent, or the channel finishes when it owes none (R110, R114). -/
def owedSent (s t : State) (i : Site) (c : SiteChannel) : Prop :=
  (c.owed = none → siteFinished s t i c .none none) ∧
    ∀ r, c.owed = some r → t.ram = s.ram ∧ channelOf t i = { c with owed := none, activity := .reporting r }

/-- An interrupted channel `c` that has given back what it had outstanding decides its disposition, clears target and
remaining set, and makes one DISARM first when an abort finds the die armed (R110, R111, R114). -/
def disposed (s t : State) (i : Site) (c : SiteChannel) : Prop :=
  ∃ r, decided c r ∧
    ∀ d : SiteChannel,
      d = { c with
        outcome := some (if c.interruption = some .link then .linkFail else .interrupted)
        owed := r
        target := none
        remaining := [] } →
      (c.interruption = some .aborted ∧ c.dieArmed = true →
        t.ram = s.ram ∧ channelOf t i = { d with activity := .naming .disarm }) ∧
      (¬ (c.interruption = some .aborted ∧ c.dieArmed = true) → owedSent s t i d)

/-! ## The probe link -/

/-- The port `q` is the port `p` after a request frame was sent (R137, R140, R149, R151). -/
def frameSent (s : State) (p q : LinkPort) (r : LinkRequest) (rePoint : Bool) : Prop :=
  ∃ (n : Nat) (test : Bool),
    n = (if readRam s 0x94 = 0 then 0 else max 2 (min 1000 (readRam s 0x94).toNat)) ∧
    (test = true ↔ n ≠ 0 ∧ n ≤ p.spacing + 1) ∧
    q = { p with
      phase := .listening
      timer := some s.lot.profile.responseLimit
      spacing := if n = 0 ∨ test = true then 0 else p.spacing + 1
      counters :=
        { p.counters with
          framesSent := saturatingInc p.counters.framesSent
          testFrames := if test then saturatingInc p.counters.testFrames else p.counters.testFrames }
      testFrame := test
      onRePoint := rePoint
      line := requestFrame r test }

/-- The exchange of the port `p` ends in link failure (R146), and the channel, in this task, goes on under R94, R113 or
R114. -/
def linkFailed (s t : State) (i : Site) (p : LinkPort) (task : LinkTask) : Prop :=
  portOf t i = { p with phase := .idle, exchange := none, timer := none, testFrame := false, onRePoint := false } ∧
    (task = .disarm → owedSent s t i (channelOf s i)) ∧
    (task ≠ .disarm → (channelOf s i).bound = none → diedWith s t i (channelOf s i) .linkFail .none) ∧
    (task ≠ .disarm → (channelOf s i).bound ≠ none →
      disposed s t i { channelOf s i with interruption := some .link })

/-- A sending of the port `p` has failed (R142): a resend is charged, at once after a refused request and after a drain
interval otherwise (R143), or the exchange ends in link failure when two have been charged. -/
def sendingFailed (s t : State) (i : Site) (p : LinkPort) (task : LinkTask) (refused : Bool) : Prop :=
  (p.retryCount < 2 →
    t.ram = s.ram ∧
      channelOf t i =
        { channelOf s i with
          figures := { (channelOf s i).figures with linkRetries := (channelOf s i).figures.linkRetries + 1 } } ∧
      (refused = false →
        portOf t i =
          { p with retryCount := p.retryCount + 1, phase := .draining, timer := some s.lot.profile.responseLimit }) ∧
      (refused = true → ∀ r, currentRequest p = some r →
        frameSent s { p with retryCount := p.retryCount + 1 } (portOf t i) r p.onRePoint)) ∧
    (2 ≤ p.retryCount → linkFailed s t i p task)

/-- A good response to a frame sent with its correct check, which the port hands to the channel in this task with its
status and data (R138, R141, R148). -/
def handedOn (s : State) (i : Site) (task : LinkTask) (bytes : List Byte) (status : Byte) (data : List Byte) : Prop :=
  (channelOf s i).activity = .exchanging task ∧ (portOf s i).phase = .listening ∧ (portOf s i).testFrame = false ∧
    (status = 0 → (portOf s i).onRePoint = false) ∧ status ≠ 0x0F ∧
    ∃ (r : LinkRequest) (check : Byte), currentRequest (portOf s i) = some r ∧ bytes = status :: (data ++ [check]) ∧
      bytes.length = expectedLength r status ∧ byteSum bytes = 0

/-! ## Closing a lot, and what follows an answer -/

/-- The lot of `s` closed by R20 in `u`: the listed indices are spoiled into the closure list, the summary is written, the
request of this sequence is answered DONE, LOT_CLOSED is raised, and the state is NO_LOT. -/
def lotClosed (s u : State) (sequence : Half) : Prop :=
  u = { s with
    ram := u.ram
    requests := { s.requests with lastAnswered := sequence, busy := false, inProgress := none }
    attention := s.attention ||| 18
    lot := { s.lot with
      state := .noLot
      resumeList := []
      spoiled := s.lot.spoiled + s.lot.resumeList.length
      closureList := s.lot.closureList ++ s.lot.resumeList.map (·.index) } } ∧
    summaryWritten u 1 ∧
    answered s u sequence .done 0
      [BitVec.ofNat 32 u.lot.nextIndex, BitVec.ofNat 32 u.lot.committed, BitVec.ofNat 32 u.lot.spoiled,
        BitVec.ofNat 32 u.lot.closureList.length] ∧
    ramOutside s u [answerFields, summaryBytes u.lot.closureList.length]

/-- The outcome is the next state `u`, or, when a notification waits in `u`, the examination of the slot that R171 makes
there. -/
def settlesIn (o : Host.Outcome State Fault Refusal) (u : State) : Prop :=
  (u.requests.pendingNotify = false → o = .next u) ∧
    (u.requests.pendingNotify = true →
      o = exec (.notify 0) { u with requests := { u.requests with pendingNotify := false } })

/-! ## Claims and reports in flight at a soft reset (R22) -/

/-- The fresh index that a channel holds. -/
def freshIndex (c : SiteChannel) : Option Nat :=
  match c.bound with
  | some { index := n, kind := .fresh } => some n
  | _ => none

/-- The command in which the lot controller takes what a site in this activity has sent it. -/
def takingCommand (i : Site) : Activity → Option Instr
  | .claimingFresh => some (.freshClaim i)
  | .claimingResume => some (.resumeClaim i)
  | .reporting .commit => some (.commit i)
  | .reporting (.spoil _) => some (.spoil i)
  | .reporting .hold => some (.hold i)
  | .reporting .release => some (.release i)
  | _ => none

/-- The lot controller `l` after it has taken what site `i` has in flight in `s`: what the command of that claim or report
makes of it. -/
def lotTaken (s : State) (l : LotController) (i : Site) : LotController :=
  match takingCommand i (channelOf s i).activity with
  | none => l
  | some c =>
    match exec c { s with lot := l } with
    | .next t => t.lot
    | _ => l

/-- The lot controller of `s` after it has taken what these sites have in flight, one after another. -/
def lotAfterTaking (s : State) (sites : List Site) : LotController := sites.foldl (lotTaken s) s.lot

/-- The order of a soft reset: the sites named, each at its first place, then the others in ascending order. -/
def takingOrder (order : List Site) : List Site := (order ++ Config.allSites).eraseDups

/-- The fresh index that a site holds once what is in flight has been taken in this order: a claim gives it one when it is
granted, that is when next_index rises, and a report has taken its index away. -/
def freshHeld (s : State) (order : List Site) (i : Site) : Option Nat :=
  match (channelOf s i).activity with
  | .claimingFresh =>
    let l := lotAfterTaking s ((takingOrder order).takeWhile (· ≠ i))
    if (lotTaken s l i).nextIndex = l.nextIndex then none else some l.nextIndex
  | .reporting _ => none
  | _ => freshIndex (channelOf s i)

/-! ## Laws that every command keeps -/

/-- The law of conservation: while a lot is OPEN or DRAINING, every index below next_index is accounted for (R15). -/
def lotConserved (l : LotController) : Prop :=
  l.state ≠ .noLot → l.nextIndex = l.first + (l.committed + l.spoiled + l.freshBound + l.resumeList.length)

/-- The law of allocation: next_index does not exceed last + 1 (R6). -/
def allocationInRange (l : LotController) : Prop := l.state ≠ .noLot → l.nextIndex ≤ l.last + 1

/-- The resume list holds at most 64 entries (R8). -/
def listWithinPlaces (l : LotController) : Prop := l.resumeList.length ≤ 64

/-- A lot is OPEN or DRAINING only while the secret state is SEALED (R29). -/
def lotOnlyUnderSeal (s : State) : Prop := s.lot.state ≠ .noLot → s.derivation.state = .sealed

/-- HOLDOFF is asserted through SETTLING and ACTIVE and deasserted in IDLE and WAIT_LIFT, and a frame is active exactly
while the touchdown is ACTIVE (R71, R163). -/
def holdoffLaw (s : State) : Prop :=
  (s.touchdown.holdoff = true ↔ s.touchdown.state = .settling ∨ s.touchdown.state = .active) ∧
    (s.touchdown.activeFrame.isSome = true ↔ s.touchdown.state = .active)

/-- The request unit is busy exactly while a request is in progress; while the part runs, a notification waits only while
the unit is busy; and during a start-up or a soft reset there is no request, no touchdown and no lot (R164, R171, R182). -/
def requestLaw (s : State) : Prop :=
  s.requests.busy = s.requests.inProgress.isSome ∧
    (s.phase = .running → s.requests.busy = false → s.requests.pendingNotify = false) ∧
    (s.phase ≠ .running → s.requests.busy = false ∧ s.touchdown.state = .idle ∧ s.lot.state = .noLot)

/-- A channel works while it has something outstanding that is not its entry into DONE, or holds an index. -/
def works (c : SiteChannel) : Prop := (c.activity ≠ .resting ∧ c.activity ≠ .finished) ∨ c.bound ≠ none

/-- A channel works only while the touchdown is ACTIVE, and is then not DONE; beyond its lot check it works only in a lot, and
before it its die is not armed (R5, R15, R80, R92). -/
def workLaw (s : State) : Prop :=
  ∀ i : Site,
    (works (channelOf s i) → s.touchdown.state = .active ∧ (channelOf s i).state ≠ .done) ∧
      (works (channelOf s i) → (channelOf s i).activity ≠ .starting ∨ (channelOf s i).bound ≠ none →
        s.lot.state ≠ .noLot) ∧
      ((channelOf s i).activity = .starting → (channelOf s i).dieArmed = false)

/-- The exchanges that a channel makes before it holds an index (R93 to R97). -/
def scanTasks : List LinkTask := [.ident, .onlyPoint, .onlyRead, .blankPoint, .blankRead, .evalPoint, .evalRead]

/-- What a channel has outstanding agrees with the index it holds: none before its claim is granted; a report is owed only
through a DISARM, exactly when an index is held; a hold is of a fresh index and a release of a resumed one (R9, R11, R94,
R111, R114). -/
def indexFitsActivity (c : SiteChannel) : Prop :=
  (c.activity = .starting ∨ c.activity = .claimingFresh ∨ c.activity = .claimingResume ∨
      (∃ task ∈ scanTasks, c.activity = .naming task ∨ c.activity = .exchanging task) → c.bound = none) ∧
    (c.activity = .naming .disarm ∨ c.activity = .exchanging .disarm → (c.owed = none ↔ c.bound = none)) ∧
    (c.owed ≠ none → c.activity = .naming .disarm ∨ c.activity = .exchanging .disarm) ∧
    ∀ b ∈ c.bound,
      (c.activity = .reporting .hold ∨ c.owed = some .hold → b.kind = .fresh) ∧
        (c.activity = .reporting .release ∨ c.owed = some .release → b.kind = .resumed)

/-- The law of holding (R8) with what it rests on: no two entries of the resume list hold one index; every listed index and
every fresh index that a site holds lies below next_index; a fresh index that a site holds is held by no other site and is not
listed; and fresh-bound is the number of sites that hold a fresh index (R15). -/
def holdingLaw (s : State) : Prop :=
  (∀ i, indexFitsActivity (channelOf s i)) ∧
    (s.lot.resumeList.map (·.index)).Nodup ∧
    (∀ e ∈ s.lot.resumeList, e.index < s.lot.nextIndex) ∧
    (∀ (i : Site), ∀ n ∈ freshIndex (channelOf s i),
      n < s.lot.nextIndex ∧ (∀ e ∈ s.lot.resumeList, e.index ≠ n) ∧ ∀ j, j ≠ i → freshIndex (channelOf s j) ≠ some n) ∧
    s.lot.freshBound = Config.allSites.countP fun i => (freshIndex (channelOf s i)).isSome

/-- The law of the rail (R119): slots in use do not exceed S, S does not exceed 16, and slots in use is the number of sites
with a pulse in flight; a site has a pulse or a waiting request only while its channel awaits it or gives it back. -/
def railLaw (s : State) : Prop :=
  s.rail.slotTotal ≤ 16 ∧ s.rail.slotsInUse ≤ s.rail.slotTotal ∧
    s.rail.slotsInUse = (Config.allSites.countP fun i => (s.rail.pulses[i]).isSome) ∧
    ∀ i : Site,
      (s.rail.pulses[i] ≠ none → (channelOf s i).activity = .pulsing ∨ (channelOf s i).activity = .cutting) ∧
        (s.rail.waiting[i] ≠ none →
          (channelOf s i).activity = .awaitingSlot ∨ (channelOf s i).activity = .withdrawingSlot)

/-- The secret, its state and the check value are those of another state (R29). -/
def sameSecret (s t : State) : Prop :=
  t.derivation.secret = s.derivation.secret ∧ t.derivation.state = s.derivation.state ∧
    t.derivation.checkValue = s.derivation.checkValue

/-! ## Runs -/

/-- A step that stops neither in a fault nor in a refusal. -/
def completes (o : Host.Outcome State Fault Refusal) : Prop := ∃ t, o = .next t

/-- A safe run: every step of it completes. -/
def runsSafely (k : Nat) (s : State) : Prop := completes (Host.Core.run core k s)

end Sys2Proof.Machine
end

