-- ==== Sys2Proof/Certificates/Slice0/Obligations.lean ====
section
/-!
DEFINITION. The statements for the provers: what each command does, from every state that meets the hypotheses, and the
laws that every command keeps.
-/

open Sys2Proof Sys2Proof.Machine

/-! ## The queue and the outcomes -/

/-- The command at the front of the queue is executed with the queue's rest. -/
def Obligations.StepRunsTheFrontCommand : Prop :=
  ∀ (s : State) (c : Instr) (rest : List Instr), s.pending = c :: rest → step s = exec c { s with pending := rest }

/-- No command touches the queue, no reset included. This is the model's choice (notes/assumptions/23.md): the queue is the
model's own, and the spec has none. -/
def Obligations.CommandsLeaveTheQueue : Prop :=
  ∀ (c : Instr) (s t : State), exec c s = .next t → t.pending = s.pending

/-- Every command completes in every state, but for a host write beyond the 64 KiB window. Both are the model's choice: the
window is spec/09's, but that an access beyond it faults is notes/assumptions/13.md, and that a command completes where its
event cannot occur is notes/assumptions/4.md. -/
def Obligations.OnlyHostWritesBeyondTheWindowStop : Prop :=
  ∀ (c : Instr) (s : State),
    (∃ t, exec c s = .next t) ∨
      ∃ offset lanes value,
        c = .hostRamWrite offset lanes value ∧ 65536 ≤ offset.toNat ∧ exec c s = .fault (.outsideExchangeRam offset)

/-- The model's choice (notes/assumptions/2.md, notes/assumptions/4.md): an empty queue idles, and a command whose event
cannot occur in the state changes nothing. -/
def Obligations.CommandsWithoutTheirEventDoNothing : Prop :=
  (∀ s : State, s.pending = [] → step s = .next s) ∧
    (∀ (i : Site) (s : State), (∀ t, (channelOf s i).activity ≠ .naming t) → (channelOf s i).activity ≠ .starting →
      exec (.exchangeRequest i) s = .next s) ∧
    (∀ (i : Site) (bytes : List Byte) (s : State), (portOf s i).phase ≠ .listening →
      exec (.responseComplete i bytes) s = .next s ∧ exec (.responseTimeout i) s = .next s) ∧
    (∀ (i : Site) (s : State), (portOf s i).phase ≠ .draining → exec (.drainEnd i) s = .next s) ∧
    (∀ (i : Site) (s : State), (channelOf s i).interruptSent = none → exec (.interruption i) s = .next s) ∧
    (∀ (i : Site) (s : State), (channelOf s i).activity ≠ .finished → exec (.siteDone i) s = .next s) ∧
    (∀ (i : Site) (s : State), (channelOf s i).activity = .resting →
      ∀ c, c ∈ [Instr.freshClaim i, .resumeClaim i, .hold i, .release i, .commit i, .spoil i, .keyRequest i, .keyWithdrawal i,
          .slotRequest i, .slotWithdrawal i, .pulseCut i] → exec c s = .next s) ∧
    (∀ s : State, s.derivation.inProgress = none → exec .keyDelivery s = .next s) ∧
    (∀ (i : Site) (s : State), s.rail.pulses[i] = none → exec (.pulseEnd i) s = .next s) ∧
    (∀ (m : LatchMoment) (s : State), s.touchdown.settleTimer = none → exec (.settleExpiry m) s = .next s) ∧
    (∀ s : State, s.contactLine = true → exec .contactRise s = .next s) ∧
    (∀ s : State, s.contactLine = false → exec .contactFall s = .next s) ∧
    (∀ s : State, s.mirror.intervalTimer = none → exec .mirrorIntervalExpiry s = .next s) ∧
    (∀ s : State, s.mirror.zeroReached = 0 → exec .mirrorCountdownZero s = .next s) ∧
    (∀ (early : BitVec 35) (s : State), s.mirror.writing = false → exec (.mirrorWriteEnd early) s = .next s) ∧
    (∀ s : State, s.phase ≠ .startupReady → exec .startupEnd s = .next s) ∧
    (∀ s : State, s.phase ≠ .softReset → exec .softResetEnd s = .next s) ∧
    (∀ (order : List Site) (s : State), s.phase ≠ .running →
      exec (.softReset order) s = .next s ∧ exec .mirrorNow s = .next s) ∧
    ∀ s : State, (∀ code, ¬ posted s code) →
      ∀ c, c ∈ [Instr.openLot, .closeLot, .spoilIndex, .listResume, .validateProfile, .loadSecret, .sealSecret,
          .abortTouchdown, .clearCounters, .unknown] → exec c s = .next s

/-! ## Laws that every step keeps -/

/-- The exchange RAM keeps its canonical form, so that equal contents are equal data. -/
def Obligations.RamCanonicalFormIsKept : Prop :=
  ∀ s t : State, s.ram.wf → step s = .next t → t.ram.wf

/-- The law of conservation (R15): next_index - first = committed + spoiled + fresh-bound + list length, at every moment of
an OPEN or DRAINING lot. -/
def Obligations.LotConservationIsKept : Prop :=
  ∀ s t : State, lotConserved s.lot → step s = .next t → lotConserved t.lot

/-- The law of allocation (R6), the bound of the resume list (R8) and the law that a lot is open only under a sealed secret
(R29); the law that a channel works, or holds an index, only in an ACTIVE touchdown (R15, R80); and the law of holding: no two
entries of the resume list hold one index (R8), and fresh-bound is the number of sites that hold a fresh index (R15). -/
def Obligations.LotBoundsAndSealAreKept : Prop :=
  (∀ s t : State, allocationInRange s.lot ∧ listWithinPlaces s.lot ∧ lotOnlyUnderSeal s → step s = .next t →
    allocationInRange t.lot ∧ listWithinPlaces t.lot ∧ lotOnlyUnderSeal t) ∧
    (∀ s t : State, workLaw s → step s = .next t → workLaw t) ∧
    ∀ s t : State, workLaw s ∧ holdingLaw s → step s = .next t → holdingLaw t

/-- HOLDOFF is asserted exactly in SETTLING and ACTIVE (R71), and a frame is active exactly in ACTIVE (R163). -/
def Obligations.HoldoffAndActiveFrameFollowTheTouchdown : Prop :=
  ∀ s t : State, holdoffLaw s → step s = .next t → holdoffLaw t

/-- The request unit's flags agree with its request (R164), a notification never waits at an idle unit (R171), and a
start-up or soft reset has no request, touchdown or lot (R182). -/
def Obligations.RequestUnitLawIsKept : Prop :=
  ∀ s t : State, requestLaw s → step s = .next t → requestLaw t

/-- The groups that a mirror write keeps are those of the moment at which it begins (the model's choice of one moment of R179,
notes/assumptions/10.md): the command that begins a write keeps the groups of the state it finds, whether it is a trigger or
the end of a write with write pending set; and while the write is in progress, no command but its own end and the two resets
changes what is kept, the count or the write in progress. -/
def Obligations.MirrorSnapshotIsOfOneMoment : Prop :=
  (∀ (c : Instr) (s t : State), s.mirror.writing = false → exec c s = .next t → t.mirror.writing = true →
    t.mirror.snapshot = mirrorGroups s) ∧
    (∀ (early : BitVec 35) (s t : State), s.mirror.writing = true → s.mirror.writePending = true →
      exec (.mirrorWriteEnd early) s = .next t →
      t.mirror.writing = true ∧ t.mirror.writePending = false ∧ t.mirror.count = s.mirror.count + 1 ∧
        t.mirror.snapshot = mirrorGroups s) ∧
    ∀ (c : Instr) (s t : State), s.mirror.writing = true → (∀ early, c ≠ .mirrorWriteEnd early) →
      (∀ order, c ≠ .softReset order) → (∀ p b, c ≠ .powerOnReset p b) → exec c s = .next t →
      t.mirror.writing = true ∧ t.mirror.count = s.mirror.count ∧ t.mirror.snapshot = s.mirror.snapshot

/-- The law of the sealed secret (R29): while SEALED, no command but a power-on reset changes the secret, its state or the
check value. -/
def Obligations.SealedSecretStays : Prop :=
  ∀ (c : Instr) (s t : State), s.derivation.state = .sealed → (∀ p b, c ≠ .powerOnReset p b) → exec c s = .next t →
    sameSecret s t

/-- The state after reset meets every law that a statement says the steps keep, and no mirror write is in progress. -/
def Obligations.ResetMeetsTheLaws : Prop :=
  State.reset.ram.wf ∧ lotConserved State.reset.lot ∧ allocationInRange State.reset.lot ∧
    listWithinPlaces State.reset.lot ∧ lotOnlyUnderSeal State.reset ∧ workLaw State.reset ∧ holdingLaw State.reset ∧
    railLaw State.reset ∧ holdoffLaw State.reset ∧ requestLaw State.reset ∧ State.reset.mirror.writing = false

/-! ## Resets -/

/-- Power-on reset (R181): the straps are sampled, CONTROL and ATTENTION are 0, the RAM is zeroed, and every block takes
the values that its own chapter states (R2, R24, R69, R89, R90, R116, R139, R164, R180). The model's choice are four clauses:
that the level of the CONTACT line stands (notes/assumptions/15.md), that the queue stands (notes/assumptions/23.md), that the
fields which only the rules imply are at rest (of a channel: notes/assumptions/6.md, 21.md and 29.md; of a port:
notes/assumptions/25.md; `zeroReached`: notes/assumptions/19.md), and that the writer keeps no groups (notes/assumptions/10.md).
The named values of the blocks are given field by field. -/
def Obligations.PowerOnResetValues : Prop :=
  ∀ (population : BitVec 4) (secretLoad : Bool) (s : State),
    ∃ t, exec (.powerOnReset population secretLoad) s = .next t ∧
      (∀ a, readByte t.ram a = 0) ∧ t.phase = .startupWaiting ∧
      t.straps = { population := population, secretLoad := secretLoad } ∧ t.enables = 0 ∧ t.attention = 0 ∧
      t.requests = { lastAnswered := 0, busy := false, pendingNotify := false, inProgress := none } ∧
      (t.lot.state = .noLot ∧ t.lot.number = 0 ∧ t.lot.first = 0 ∧ t.lot.last = 0 ∧
        t.lot.profile =
          { dieType := 0, minWords := 0, baseWord := 0, baseWidth := 0, refTemp := 0, gain := 0, draw := 0, maxAttempts := 0,
            responseLimit := 0, windows := List.replicate 4 { enabled := false, first := 0, last := 0 } } ∧
        t.lot.nextIndex = 0 ∧ t.lot.committed = 0 ∧ t.lot.spoiled = 0 ∧ t.lot.freshBound = 0 ∧ t.lot.resumeList = [] ∧
        t.lot.closureList = []) ∧
      t.derivation =
        { secret := { m0 := 0, m1 := 0, m2 := 0, m3 := 0 }, state := .absent, checkValue := 0, waiting := [],
          inProgress := none } ∧
      t.touchdown = TouchdownController.afterPowerOn ∧ t.channels = Vector.replicate 16 SiteChannel.afterPowerOn ∧
      t.ports = Vector.replicate 16 LinkPort.afterPowerOn ∧ t.mirror = MirrorWriter.afterReset ∧
      (t.touchdown.state = .idle ∧ t.touchdown.holdoff = false ∧ t.touchdown.contactLevel = false ∧
        t.touchdown.settleTimer = none ∧ t.touchdown.takePointer = 0 ∧ t.touchdown.activeFrame = none ∧
        t.touchdown.endReason = none ∧ t.touchdown.abortPending = false ∧ t.touchdown.number = 0 ∧
        t.touchdown.latchedTemp = 0 ∧ t.touchdown.latchedContact = 0 ∧ t.touchdown.hostTag = 0 ∧
        t.touchdown.waferId = 0 ∧ t.touchdown.total = 0 ∧ t.touchdown.bounced = 0 ∧ t.touchdown.planless = 0 ∧
        t.touchdown.overlapped = 0) ∧
      (∀ i, ∃ c, c = channelOf t i ∧ c.state = .idle ∧ c.action = 0 ∧ c.dieX = 0 ∧ c.dieY = 0 ∧ c.waferId = 0 ∧
        c.contact = false ∧ c.dieType = 0 ∧ c.minWords = 0 ∧ c.baseWord = 0 ∧ c.maxAttempts = 0 ∧ c.bound = none ∧
        c.pulseGranted = false ∧ c.target = none ∧ c.remaining = [] ∧ c.attempt = 1 ∧ c.dieArmed = false ∧
        c.interruption = none ∧ c.activity = .resting ∧ c.interruptSent = none ∧ c.readback = 0 ∧ c.outcome = none ∧
        c.owed = none ∧ (∀ f : Fin 2, c.recordCoordinates[f] = none) ∧
        c.figures = { blows := 0, pulses := 0, rePulses := 0, linkRetries := 0, failingPosition := none,
                      readbackBinding := none, imageLocked := none }) ∧
      (∀ i, (portOf t i).phase = .idle ∧ (portOf t i).exchange = none ∧ (portOf t i).retryCount = 0 ∧
        (portOf t i).pointedAddress = none ∧ (portOf t i).timer = none ∧ (portOf t i).spacing = 0 ∧
        (portOf t i).testFrame = false ∧ (portOf t i).onRePoint = false ∧ (portOf t i).line = [] ∧
        (portOf t i).counters =
          { framesSent := 0, goodResponses := 0, checkErrors := 0, timeouts := 0, dieCheckErrors := 0, testFrames := 0 }) ∧
      (t.rail.slotTotal = 0 ∧ t.rail.slotsInUse = 0 ∧ t.rail.lastGranted = 15 ∧ t.rail.hold = false ∧
        (∀ i : Site, t.rail.waiting[i] = none ∧ t.rail.pulses[i] = none)) ∧
      t.reading = 0 ∧
      (t.mirror.count = 0 ∧ t.mirror.intervalTimer = none ∧ t.mirror.countdown = none ∧ t.mirror.writing = false ∧
        t.mirror.writePending = false ∧ t.mirror.zeroReached = 0 ∧ t.mirror.snapshot = []) ∧
      t.contactLine = s.contactLine ∧ t.pending = s.pending

/-- The end of the start-up (R181 steps 3 and 4): the identity block is written (R159), the controller reads the level of
CONTACT and takes no rise from it (R88), and the slot is examined exactly when a notification waits (R164). With it, the
codes of the secret state (spec/02 section 2.1). -/
def Obligations.StartupEndPublishesTheIdentity : Prop :=
  [SecretState.absent, .loaded, .sealed].map SecretState.code = [0, 1, 2] ∧
  ∀ s : State, s.phase = .startupReady → s.ram.wf → requestLaw s →
    ∃ u : State,
      u = { s with ram := u.ram, phase := .running, touchdown := { s.touchdown with contactLevel := s.contactLine } } ∧
      identityWritten s u ∧ ramOutside s u [(0x00, 0x40)] ∧
      (s.requests.pendingNotify = false → exec .startupEnd s = .next u) ∧
      (s.requests.pendingNotify = true →
        exec .startupEnd s = exec (.notify 0) { u with requests := { u.requests with pendingNotify := false } })

/-- Steps 1 to 4 of a soft reset (R182), whatever the order in which claims and reports in flight are taken: what each
block is left with (R38, R87, R115, R134, R154, R173, R180) and what becomes of every region of the RAM (R157). An open lot is
closed by R22: what is in flight is taken in the order given, each by its own command; then every listed index, in list order,
and after them every fresh index that a site holds, in site order, is spoiled and joins the closure list; fresh-bound is 0,
the lot is NO_LOT, its other values stand, and the summary is written. Three clauses are the model's choice: that the order is
an operand (notes/assumptions/11.md), that bits 24..31 of the answer word are written 0 (notes/assumptions/27.md), and that
the coordinates of the records become none (notes/assumptions/29.md). -/
def Obligations.SoftResetClearsThePart : Prop :=
  ∀ (order : List Site) (s : State), s.phase = .running → s.ram.wf →
    ∃ t, exec (.softReset order) s = .next t ∧
      t = { s with
        ram := t.ram
        phase := .softReset
        requests := { lastAnswered := postedSequence s, busy := false, pendingNotify := false, inProgress := none }
        lot := t.lot
        derivation := { s.derivation with waiting := [], inProgress := none }
        touchdown := { TouchdownController.afterPowerOn with contactLevel := s.touchdown.contactLevel }
        channels := Vector.replicate 16 SiteChannel.afterPowerOn
        ports := Vector.replicate 16 LinkPort.afterPowerOn
        rail := { s.rail with
          slotsInUse := 0
          waiting := Vector.replicate 16 none
          lastGranted := 15
          pulses := Vector.replicate 16 none }
        mirror := MirrorWriter.afterReset } ∧
      readRam t 0x7C = (postedSequence s).setWidth 32 ∧ identityWritten s t ∧
      readRam t 0x1000 = 0 ∧ readRam t 0x2000 = 0 ∧
      (∀ a, 0x4000 ≤ a → a < 0x4800 → readByte t.ram a = 0) ∧
      (s.lot.state = .noLot →
        t.lot = s.lot ∧
          ramOutside s t [(0x00, 0x40), (0x7C, 4), (0x1000, 4), (0x2000, 4), (0x4000, 0x800)]) ∧
      (s.lot.state ≠ .noLot →
        t.lot.state = .noLot ∧ t.lot.resumeList = [] ∧ t.lot.number = s.lot.number ∧ t.lot.first = s.lot.first ∧
          t.lot.last = s.lot.last ∧ t.lot.profile = s.lot.profile ∧ summaryWritten t 2 ∧
          ramOutside s t
            [(0x00, 0x40), (0x7C, 4), summaryBytes t.lot.closureList.length, (0x1000, 4), (0x2000, 4), (0x4000, 0x800)] ∧
          (holdingLaw s → ∀ (l : LotController) (fresh : List Nat), l = lotAfterTaking s (takingOrder order) →
            fresh = Config.allSites.filterMap (freshHeld s order) →
            t.lot =
              { s.lot with
                state := .noLot
                nextIndex := l.nextIndex
                committed := l.committed
                spoiled := l.spoiled + l.resumeList.length + fresh.length
                freshBound := 0
                resumeList := []
                closureList := s.lot.closureList ++ l.resumeList.map (·.index) ++ fresh }))

/-- Steps 5 to 8 of a soft reset (R182): ATTENTION and the hold are cleared, CONTACT is followed again, RESET_DONE is
raised, and the slot is examined exactly when a notification waits (R173). -/
def Obligations.SoftResetEndRaisesResetDone : Prop :=
  ∀ s u : State, s.phase = .softReset → requestLaw s →
    u = { s with
      phase := .running
      attention := 32
      rail := { s.rail with hold := false }
      touchdown := { s.touchdown with contactLevel := s.contactLine } } →
    (s.requests.pendingNotify = false → exec .softResetEnd s = .next u) ∧
      (s.requests.pendingNotify = true →
        exec .softResetEnd s = exec (.notify 0) { u with requests := { u.requests with pendingNotify := false } })

/-! ## Registers, attention and host writes -/

/-- ATTENTION and the enables (R176, R177): a raise sets its bit, a write of 1 clears a bit, the enables hold the value last
written, and the interrupt line is asserted exactly while some bit is set and enabled. With it, the bit of each cause. -/
def Obligations.InterruptLineFollowsAttentionAndEnables : Prop :=
  [AttentionCause.frameDone, .requestDone, .noPlan, .tempHold, .lotClosed, .resetDone].map AttentionCause.bit =
    [0, 1, 2, 3, 4, 5] ∧
  (∀ (value : Word) (s : State), ∃ t, exec (.attentionWrite value) s = .next t ∧ t = { s with attention := t.attention } ∧
    ∀ k, k < 6 → t.attention.getLsbD k = (s.attention.getLsbD k && !value.getLsbD k)) ∧
  (∀ (enables : BitVec 6) (s : State), exec (.interruptEnables enables) s = .next { s with enables := enables }) ∧
  (∀ (c : AttentionCause) (s : State), raise s c = { s with attention := (raise s c).attention } ∧
    ∀ k, k < 6 → (raise s c).attention.getLsbD k = (s.attention.getLsbD k || decide (k = c.bit))) ∧
  (∀ s : State, interruptLine s = true ↔ ∃ k, k < 6 ∧ s.attention.getLsbD k = true ∧ s.enables.getLsbD k = true)

/-- A write to IDENT or STRAPS has no effect (R174), and the five registers read as the table of spec/10 section 10.1 and
R174, R175 and R176 say. -/
def Obligations.RegistersReadAsTheTableSays : Prop :=
  (∀ (r : ReadOnlyRegister) (value : Word) (s : State), exec (.registerWrite r value) s = .next s) ∧
  ∀ s : State,
    readRegister s 0x00 = 0x00015016 ∧
    (∀ k, k < 32 → (readRegister s 0x04).getLsbD k =
      ((decide (k = 0) && decide (s.phase = .softReset)) || (decide (8 ≤ k) && s.enables.getLsbD (k - 8)))) ∧
    readRegister s 0x08 = 0 ∧
    (∀ k, k < 32 → (readRegister s 0x0C).getLsbD k = s.attention.getLsbD k) ∧
    ∀ k, k < 32 → (readRegister s 0x10).getLsbD k =
      (s.straps.population.getLsbD k || (decide (k = 8) && s.straps.secretLoad))

/-- A host write changes only the bytes that it names of the one word (R155), and touches no block (R156). That bits 0 and 1 of
an offset that is no multiple of 4 play no part is the model's choice (notes/assumptions/13.md). With it, what a word is: four
bytes, the lowest first (spec/00 section 5). -/
def Obligations.HostWriteChangesTheNamedBytes : Prop :=
  (∀ (s : State) (a k : Nat), k < 4 → (readRam s a).extractLsb' (8 * k) 8 = readByte s.ram (a + k)) ∧
  ∀ (offset : Word) (lanes : BitVec 4) (value : Word) (s : State), s.ram.wf → offset.toNat < 65536 →
    ∃ t, exec (.hostRamWrite offset lanes value) s = .next t ∧ t = { s with ram := t.ram } ∧
      (∀ k, k < 4 → readByte t.ram (offset.toNat / 4 * 4 + k) =
        if lanes.getLsbD k then value.extractLsb' (8 * k) 8 else readByte s.ram (offset.toNat / 4 * 4 + k)) ∧
      ramOutside s t [(offset.toNat / 4 * 4, 4)]

/-! ## The status mirror -/

/-- A trigger of a mirror write (R178): MIRROR_NOW, the interval timer or the countdown. It begins a write, which sets the
schedule from the configuration block and writes the start count and the mode used (R179 steps 1 and 2), or it sets write
pending. That the writer keeps the groups as they stand at the beginning is the model's choice (notes/assumptions/10.md), and
so is the count of the countdown's triggers that are in flight (notes/assumptions/19.md). -/
def Obligations.MirrorTriggersBeginOrWait : Prop :=
  ∀ (c : Instr) (s : State) (m : MirrorWriter), s.ram.wf →
    (c = .mirrorNow ∧ s.phase = .running ∧ m = s.mirror ∨
      c = .mirrorIntervalExpiry ∧ s.mirror.intervalTimer.isSome = true ∧ m = { s.mirror with intervalTimer := none } ∨
      c = .mirrorCountdownZero ∧ s.mirror.zeroReached ≠ 0 ∧
        m = { s.mirror with zeroReached := s.mirror.zeroReached - 1 }) →
    ∃ t, exec c s = .next t ∧ t = { s with ram := t.ram, mirror := t.mirror } ∧
      (s.mirror.writing = true → t.ram = s.ram ∧ t.mirror = { m with writePending := true }) ∧
      (s.mirror.writing = false →
        ∃ mode : Nat, mode = (if (readRam s 0x8C).toNat ≤ 2 then (readRam s 0x8C).toNat else 0) ∧
          t.mirror = { m with
            count := s.mirror.count + 1
            intervalTimer := if mode = 1 then some (max 1 (min 60000 (readRam s 0x90).toNat)) else none
            countdown := if mode = 2 then some (max 1 (min 4096 (readRam s 0x90).toNat)) else none
            writing := true
            snapshot := mirrorGroups s } ∧
          readRam t 0x4000 = s.mirror.count + 1 ∧ readRam t 0x4008 = BitVec.ofNat 32 mode ∧
          ramOutside s t [(0x4000, 4), (0x4008, 4)])

/-- The end of a mirror write (R179 steps 3 and 4): every group of the table stands in the mirror as its block had it at one
moment, which is the write's beginning (s₀) or its end (the model's choice, notes/assumptions/10.md), and the end count is
written; with write pending set another write begins at once (R178). With it, the codes of the touchdown, lot and site
states. -/
def Obligations.MirrorWriteShowsEveryGroup : Prop :=
  ([TouchdownState.idle, .settling, .active, .waitLift].map TouchdownState.code = [0, 1, 2, 3] ∧
    [LotState.noLot, .opened, .draining].map LotState.code = [0, 1, 2] ∧
    [SiteState.idle, .probe, .scan, .bind, .burn, .lock, .check, .done].map SiteState.code = [0, 1, 2, 3, 4, 5, 6, 7]) ∧
  ∀ (early : BitVec 35) (s s₀ : State), s.ram.wf → s.mirror.writing = true → s.mirror.snapshot = mirrorGroups s₀ →
    ∃ u : State,
      u = { s with ram := u.ram, mirror := { s.mirror with writing := false, snapshot := [] } } ∧
      ramOutside s u [(0x4004, 4), (0x400C, 0x2D4)] ∧ readRam u 0x4004 = s.mirror.count ∧
      (∀ x : State, x = (if early.getLsbD 0 then s₀ else s) →
        readRam u 0x400C = x.touchdown.state.code ∧ readRam u 0x4010 = BitVec.ofNat 32 x.touchdown.takePointer.val ∧
        readRam u 0x4014 = x.touchdown.total ∧ readRam u 0x4018 = x.touchdown.bounced ∧
        readRam u 0x401C = x.touchdown.planless ∧ readRam u 0x4020 = x.touchdown.overlapped) ∧
      (∀ x : State, x = (if early.getLsbD 1 then s₀ else s) →
        readRam u 0x4024 = x.lot.state.code ∧ readRam u 0x4028 = x.lot.number ∧
        readRam u 0x402C = BitVec.ofNat 32 x.lot.nextIndex ∧ readRam u 0x4030 = BitVec.ofNat 32 x.lot.committed ∧
        readRam u 0x4034 = BitVec.ofNat 32 x.lot.spoiled ∧ readRam u 0x4038 = BitVec.ofNat 32 x.lot.freshBound ∧
        readRam u 0x403C = BitVec.ofNat 32 x.lot.resumeList.length ∧
        readRam u 0x4040 = BitVec.ofNat 32 x.rail.slotTotal) ∧
      (∀ x : State, x = (if early.getLsbD 2 then s₀ else s) →
        readRam u 0x4044 = BitVec.ofNat 32 x.rail.slotsInUse ∧
        readRam u 0x4048 = BitVec.ofNat 32 ((List.finRange 16).countP fun i => (x.rail.waiting[i]).isSome) ∧
        readRam u 0x404C = BitVec.ofInt 32 x.reading ∧
        readRam u 0x4050 = (if x.rail.hold then 1 else 0) ∧
        readRam u 0x4054 = 0 ∧ readRam u 0x4058 = 0 ∧ readRam u 0x405C = 0) ∧
      (∀ (i : Site) (x : State), x = (if early.getLsbD (3 + i.val) then s₀ else s) →
        readRam u (0x4060 + 16 * i.val) = (channelOf x i).state.code ∧
        readRam u (0x4064 + 16 * i.val) =
          (((channelOf x i).bound.map fun b => BitVec.ofNat 32 b.index).getD 0xFFFFFFFF) ∧
        readRam u (0x4068 + 16 * i.val) = (((channelOf x i).remaining.head?.map (BitVec.ofNat 32)).getD 0xFFFFFFFF) ∧
        readRam u (0x406C + 16 * i.val) = 0) ∧
      (∀ (i : Site) (x : State), x = (if early.getLsbD (19 + i.val) then s₀ else s) →
        readRam u (0x4160 + 24 * i.val) = (portOf x i).counters.framesSent ∧
        readRam u (0x4164 + 24 * i.val) = (portOf x i).counters.goodResponses ∧
        readRam u (0x4168 + 24 * i.val) = (portOf x i).counters.checkErrors ∧
        readRam u (0x416C + 24 * i.val) = (portOf x i).counters.timeouts ∧
        readRam u (0x4170 + 24 * i.val) = (portOf x i).counters.dieCheckErrors ∧
        readRam u (0x4174 + 24 * i.val) = (portOf x i).counters.testFrames) ∧
      (s.mirror.writePending = false → exec (.mirrorWriteEnd early) s = .next u) ∧
      (s.mirror.writePending = true → s.phase = .running →
        exec (.mirrorWriteEnd early) s =
          exec .mirrorNow { u with mirror := { u.mirror with writePending := false } })

/-! ## The request slot -/

/-- What an examination of the slot does (R165): while a request is in progress, or before the start-up or a soft reset has
ended, a NOTIFY write sets pending-notify and nothing else; a posted sequence equal to the last answered one changes
nothing; and the posted request of each code is the command of its row. With it, the posted sequence is bits 0..15 of the
slot's first word, and the answer codes are those of spec/09 section 9.5. -/
def Obligations.NotifyTakesThePostedRequest : Prop :=
  (∀ s : State, postedSequence s = (readRam s 0x40).extractLsb' 0 16) ∧
  [AnswerCode.none, .done, .badState, .badParameter, .notHeld, .inUse, .strap, .sequence, .unknown].map AnswerCode.code =
    [0, 1, 2, 3, 4, 5, 6, 7, 8] ∧
  ∀ (value : Word) (s : State),
    (s.phase ≠ .running ∨ s.requests.busy = true →
      exec (.notify value) s = .next { s with requests := { s.requests with pendingNotify := true } }) ∧
    (s.phase = .running → s.requests.busy = false → postedSequence s = s.requests.lastAnswered →
      exec (.notify value) s = .next s) ∧
    ∀ (code : Word) (c : Instr),
      (code, c) ∈ [((1 : Word), Instr.openLot), (2, .closeLot), (3, .spoilIndex), (4, .listResume), (5, .validateProfile),
        (6, .loadSecret), (7, .sealSecret), (8, .abortTouchdown), (9, .clearCounters)] →
      posted s code → exec (.notify value) s = exec c s

/-- The requests that no block takes. A code of 0 or above 9 (R167) is answered UNKNOWN with the code word in the detail word,
by its own command and by the NOTIFY that finds it. A posted sequence that is neither A nor A + 1 (R168) is answered SEQUENCE
with the old answered sequence in the detail word. Either consumes the posted sequence, sets no busy, leaves the result words
alone, raises REQUEST_DONE, and changes nothing else. -/
def Obligations.RequestsThatNoBlockTakesAreAnswered : Prop :=
  ∀ (value : Word) (s : State), s.ram.wf → requestLaw s →
    (∀ code, posted s code → code = 0 ∨ 9 < code.toNat →
      ∃ t, exec .unknown s = .next t ∧ exec (.notify value) s = .next t ∧
        t = { s with ram := t.ram, requests := t.requests, attention := s.attention ||| 2 } ∧
        answered s t (postedSequence s) .unknown code [] ∧ ramOutside s t [answerFields]) ∧
    (s.phase = .running → s.requests.busy = false → postedSequence s ≠ s.requests.lastAnswered →
      postedSequence s ≠ s.requests.lastAnswered + 1 →
      ∃ t, exec (.notify value) s = .next t ∧
        t = { s with ram := t.ram, requests := t.requests, attention := s.attention ||| 2 } ∧
        answered s t (postedSequence s) .sequence (s.requests.lastAnswered.setWidth 32) [] ∧
        ramOutside s t [answerFields])

/-- CLEAR_COUNTERS (R153): answered DONE with detail 0 and no result words in every lot and touchdown state; every link
counter and the four touchdown counters become 0, and nothing else of a port, a channel or the touchdown changes. -/
def Obligations.ClearCountersZeroesTheCounters : Prop :=
  ∀ s : State, s.ram.wf → requestLaw s → posted s 9 →
    ∃ t, exec .clearCounters s = .next t ∧
      t = { s with
        ram := t.ram
        requests := t.requests
        attention := s.attention ||| 2
        ports := t.ports
        touchdown := { s.touchdown with total := 0, bounced := 0, planless := 0, overlapped := 0 } } ∧
      (∀ i, portOf t i =
        { portOf s i with
          counters := { framesSent := 0, goodResponses := 0, checkErrors := 0, timeouts := 0, dieCheckErrors := 0,
                        testFrames := 0 } }) ∧
      answered s t (postedSequence s) .done 0 [] ∧ ramOutside s t [answerFields]

/-! ## The derivation secret and the keys -/

/-- The law of distinct keys (R37): the undoing of each round takes back the words it started from, so that the undoing of
all four takes a key back to A = L, B = n, C = 0 and D = 0, and under one secret distinct pairs give distinct keys. With it,
step by step, what a round does (R33), what its undoing does (R37), and the four rounds of a derivation. -/
def Obligations.DistinctPairsGiveDistinctKeys : Prop :=
  (∀ m a b c d a' b' c' d' : Word,
    a' = a + b → d' = (d ^^^ a').rotateLeft 8 → c' = c + d' → b' = (b ^^^ c').rotateLeft 16 →
    keyRound m { k0 := a, k1 := b, k2 := c, k3 := d } = { k0 := a' + m, k1 := b', k2 := c', k3 := d' }) ∧
    (∀ m a b c d a' b' c' d' : Word,
      a' = a - m → b' = b.rotateRight 16 ^^^ c → c' = c - d → d' = d.rotateRight 8 ^^^ a' →
      undoRound m { k0 := a, k1 := b, k2 := c, k3 := d } = { k0 := a' - b', k1 := b', k2 := c', k3 := d' }) ∧
    (∀ m0 m1 m2 m3 lot index : Word,
      deriveKey { m0 := m0, m1 := m1, m2 := m2, m3 := m3 } lot index =
        keyRound m3 (keyRound m2 (keyRound m1 (keyRound m0 { k0 := lot, k1 := index, k2 := 0, k3 := 0 })))) ∧
    (∀ (m : Word) (k : Key), undoRound m (keyRound m k) = k) ∧
    (∀ (m : Secret) (lot index : Word),
      undoRound m.m0 (undoRound m.m1 (undoRound m.m2 (undoRound m.m3 (deriveKey m lot index)))) =
        { k0 := lot, k1 := index, k2 := 0, k3 := 0 }) ∧
    ∀ (m : Secret) (lot index lot' index' : Word),
      deriveKey m lot index = deriveKey m lot' index' → lot = lot' ∧ index = index'

/-- LOAD_SECRET (R25, R26, R27, R30, R31): the checks in their order, each with its answer, and, when all pass, the new
secret, its check value and LOADED, published before the answer. Whatever the answer, the staging words read zero. -/
def Obligations.LoadSecretChecksAndLoads : Prop :=
  ∀ (s : State) (m : Secret), s.ram.wf → requestLaw s → posted s 6 →
    m = { m0 := readRam s 0x400, m1 := readRam s 0x404, m2 := readRam s 0x408, m3 := readRam s 0x40C } →
    ∃ t, exec .loadSecret s = .next t ∧
      t = { s with ram := t.ram, requests := t.requests, attention := s.attention ||| 2, derivation := t.derivation } ∧
      readRam t 0x400 = 0 ∧ readRam t 0x404 = 0 ∧ readRam t 0x408 = 0 ∧ readRam t 0x40C = 0 ∧
      (s.straps.secretLoad = false →
        t.derivation = s.derivation ∧ answered s t (postedSequence s) .strap s.derivation.state.code [] ∧
          ramOutside s t [answerFields, (0x400, 16)]) ∧
      (s.straps.secretLoad = true → s.derivation.state = .sealed →
        t.derivation = s.derivation ∧ answered s t (postedSequence s) .badState 2 [] ∧
          ramOutside s t [answerFields, (0x400, 16)]) ∧
      (s.straps.secretLoad = true → s.derivation.state ≠ .sealed → m = { m0 := 0, m1 := 0, m2 := 0, m3 := 0 } →
        t.derivation = s.derivation ∧ answered s t (postedSequence s) .badParameter s.derivation.state.code [] ∧
          ramOutside s t [answerFields, (0x400, 16)]) ∧
      (s.straps.secretLoad = true → s.derivation.state ≠ .sealed → m ≠ { m0 := 0, m1 := 0, m2 := 0, m3 := 0 } →
        t.derivation = { s.derivation with secret := m, state := .loaded, checkValue := (deriveKey m 0 0).k0 } ∧
          readRam t 0x10 = 1 ∧ readRam t 0x14 = (deriveKey m 0 0).k0 ∧
          answered s t (postedSequence s) .done (if s.derivation.state = .absent then 0 else 1) [(deriveKey m 0 0).k0] ∧
          ramOutside s t [answerFields, (0x400, 16), (0x10, 8)])

/-- SEAL_SECRET (R28): in LOADED the state becomes SEALED, is published with the check value, and the answer is DONE with the
check value; in ABSENT or SEALED it is BAD_STATE with the state code and nothing changes. The strap and the staging area
play no part. -/
def Obligations.SealSecretSealsTheLoadedSecret : Prop :=
  ∀ s : State, s.ram.wf → requestLaw s → posted s 7 →
    ∃ t, exec .sealSecret s = .next t ∧
      t = { s with ram := t.ram, requests := t.requests, attention := s.attention ||| 2, derivation := t.derivation } ∧
      (s.derivation.state = .loaded →
        t.derivation = { s.derivation with state := .sealed } ∧ readRam t 0x10 = 2 ∧
          readRam t 0x14 = s.derivation.checkValue ∧
          answered s t (postedSequence s) .done 0 [s.derivation.checkValue] ∧ ramOutside s t [answerFields, (0x10, 8)]) ∧
      (s.derivation.state ≠ .loaded →
        t.derivation = s.derivation ∧
          answered s t (postedSequence s) .badState (if s.derivation.state = .absent then 0 else 2) [] ∧
          ramOutside s t [answerFields])

/-- KEY_REQUEST (R35, R32): begun at once with the lot number of that moment when the engine is idle and none waits, and
otherwise joined behind the waiting ones; the channel waits. KEY_WITHDRAWAL (R36): a waiting request is removed and the others
keep their order; a request in progress is computed to its end and discarded. That the channel waits for its KEY_WITHDRAWAL and disposes of its
index there (R111) is the model's choice (notes/assumptions/7.md). -/
def Obligations.KeyRequestsAreQueuedAndWithdrawn : Prop :=
  ∀ (i : Site) (s : State),
    (∀ b, (channelOf s i).activity = .askingKey → (channelOf s i).bound = some b →
      ∃ t, exec (.keyRequest i) s = .next t ∧
        t = { s with channels := t.channels, derivation := t.derivation } ∧ sitesElse s t i ∧
        channelOf t i = { channelOf s i with activity := .awaitingKey } ∧ sameSecret s t ∧
        (s.derivation.inProgress = none → s.derivation.waiting = [] →
          t.derivation.waiting = [] ∧
            t.derivation.inProgress =
              some { site := i, index := b.index, lotNumber := s.lot.number, discarded := false }) ∧
        (s.derivation.inProgress ≠ none →
          t.derivation.waiting = s.derivation.waiting ++ [{ site := i, index := b.index }] ∧
            t.derivation.inProgress = s.derivation.inProgress)) ∧
    ((channelOf s i).activity = .withdrawingKey → s.ram.wf →
      ∃ t, exec (.keyWithdrawal i) s = .next t ∧
        t = { s with ram := t.ram, channels := t.channels, derivation := t.derivation } ∧ sitesElse s t i ∧
        sameSecret s t ∧ disposed s t i (channelOf s i) ∧
        t.derivation.waiting = s.derivation.waiting.filter (fun r => decide (r.site ≠ i)) ∧
        t.derivation.inProgress =
          s.derivation.inProgress.map (fun j => { j with discarded := j.discarded || decide (j.site = i) }))

/-- KEY_DELIVERY (R34, R36): the computation ends and the oldest waiting request begins, with the lot number of that moment
(R32). The target is composed from the lot tag, the index and the key of the lot number taken at the beginning (R39, R99). A
fresh site forms its remaining set from every targeted position in blow order and arms its first in BIND (R47). A site that
resumes spoils an overblown index with the lowest failing position (R98); otherwise every targeted position that read intact
remains, and it goes on in the phase of the first, or in CHECK when none remains (R100). A key that was withdrawn is
delivered to no channel. That the same holds of a key whose site no longer awaits it, its withdrawal being still on its way, is
the model's choice (notes/assumptions/7.md). -/
def Obligations.KeyDeliveryBeginsTheBurnOrDiscards : Prop :=
  ∀ (i : Site) (s : State) (index : Nat) (lot : Word) (discarded : Bool) (c : SiteChannel), c = channelOf s i →
    s.derivation.inProgress = some { site := i, index := index, lotNumber := lot, discarded := discarded } →
    ∃ (t : State) (x : Image),
      x = composeTarget (s.lot.number.extractLsb' 0 8) index
        (deriveKey s.derivation.secret lot (BitVec.ofNat 32 index)) ∧
      exec .keyDelivery s = .next t ∧ t = { s with channels := t.channels, derivation := t.derivation } ∧
      sitesElse s t i ∧ sameSecret s t ∧ t.derivation.waiting = s.derivation.waiting.tail ∧
      t.derivation.inProgress =
        s.derivation.waiting.head?.map (fun r =>
          { site := r.site, index := r.index, lotNumber := s.lot.number, discarded := false }) ∧
      (discarded = true ∨ c.activity ≠ .awaitingKey → t.channels = s.channels) ∧
      (discarded = false → c.activity = .awaitingKey → c.bound = some { index := index, kind := .fresh } →
        channelOf t i =
          { c with
            target := some x
            remaining := blowOrder.filter fun p => x.getLsbD p
            state := .bind
            attempt := 1
            activity := .naming .arm }) ∧
      (discarded = false → c.activity = .awaitingKey → c.bound = some { index := index, kind := .resumed } →
        (∀ p, p < 192 → c.readback.getLsbD p = true → x.getLsbD p = false →
          (∀ q, q < p → c.readback.getLsbD q = true → x.getLsbD q = true) →
          (channelOf t i).activity = .reporting (.spoil .overblown) ∧ (channelOf t i).outcome = some .overblown ∧
            (channelOf t i).figures = { c.figures with failingPosition := some p }) ∧
        ((∀ p, p < 192 → c.readback.getLsbD p = true → x.getLsbD p = true) →
          ∃ rest, rest = blowOrder.filter (fun p => x.getLsbD p && !c.readback.getLsbD p) ∧
            channelOf t i =
              { c with
                target := some x
                remaining := rest
                state := (rest.head?.map phaseOf).getD .check
                attempt := 1
                activity := .naming (if rest = [] then .lowPoint else .arm) }))

/-! ## The fuse image -/

/-- The target image (R40 to R44): where each bit of the index, the lot tag, the key words under invert coding and the
polarity fuses stands, the two count checks, the lock fuse and the unused positions. Key word 2i is the high half of Ki and
key word 2i + 1 its low half (R34). -/
def Obligations.TargetImageHoldsItsFields : Prop :=
  ∀ (tag : Byte) (index : Nat) (k : Key) (x : Image), index < 2 ^ 24 → x = composeTarget tag index k →
    (∀ b, b < 24 → x.getLsbD b = index.testBit b) ∧
    (∀ b, b < 8 → x.getLsbD (24 + b) = tag.getLsbD b) ∧
    (x.extractLsb' 32 6).toNat = (List.range 32).countP (fun p => !x.getLsbD p) ∧
    x.getLsbD 47 = true ∧ (∀ p, 38 ≤ p → p < 47 → x.getLsbD p = false) ∧
    (∀ (j : Nat) (w : Half),
      (j, w) ∈ [(0, k.k0.extractLsb' 16 16), (1, k.k0.extractLsb' 0 16), (2, k.k1.extractLsb' 16 16),
        (3, k.k1.extractLsb' 0 16), (4, k.k2.extractLsb' 16 16), (5, k.k2.extractLsb' 0 16), (6, k.k3.extractLsb' 16 16),
        (7, k.k3.extractLsb' 0 16)] →
      (x.getLsbD (176 + j) = decide (9 ≤ (List.range 16).countP (fun b => w.getLsbD b))) ∧
      ∀ b, b < 16 →
        x.getLsbD (48 + 16 * j + b) = (w.getLsbD b ^^ decide (9 ≤ (List.range 16).countP (fun b => w.getLsbD b)))) ∧
    (x.extractLsb' 184 8).toNat = (List.range 136).countP (fun p => !x.getLsbD (48 + p)) ∧
    72 ≤ (x.extractLsb' 184 8).toNat ∧ (x.extractLsb' 184 8).toNat ≤ 136

/-- The law of bounded blows (R56): at most 8 for a key word with its polarity fuse; at most 32 in binding data and check, 64
in the key field, 7 in the key check and 66 in the two together, and the lock fuse in every image; so at most 104, in fact at
most 99, and at least 4, which the zero index, tag and key need. -/
def Obligations.BlowsOfEveryImageAreBounded : Prop :=
  (∀ (w : Half) (ones : Nat), ones = (List.range 16).countP (fun b => w.getLsbD b) →
    keyWordBlows w = (if 9 ≤ ones then 16 - ones + 1 else ones) ∧ keyWordBlows w ≤ 8) ∧
    (∀ (tag : Byte) (index : Nat) (k : Key) (x : Image), index < 2 ^ 24 → x = composeTarget tag index k →
      (List.range 38).countP (fun p => x.getLsbD p) ≤ 32 ∧
      (List.range 136).countP (fun p => x.getLsbD (48 + p)) ≤ 64 ∧
      (List.range 8).countP (fun p => x.getLsbD (184 + p)) ≤ 7 ∧
      (List.range 144).countP (fun p => x.getLsbD (48 + p)) ≤ 66 ∧ x.getLsbD 47 = true ∧
      blownCount x ≤ 99 ∧ 4 ≤ blownCount x) ∧
    blownCount (composeTarget 0 0 { k0 := 0, k1 := 0, k2 := 0, k3 := 0 }) = 4

/-- A partly blown binding never reads as valid (R51): while every blown position of 0..37 is targeted, a binding reads
valid only when every targeted position of 0..37 reads blown, and then it reads the index and tag of the target; and a
valid readback that passes the overblown test leaves no BIND position to a resume. -/
def Obligations.PartBlownBindingIsNeverValid : Prop :=
  ∀ (tag : Byte) (index : Nat) (k : Key) (target x : Image), index < 2 ^ 24 → target = composeTarget tag index k →
    (∀ p, p < 38 → x.getLsbD p = true → target.getLsbD p = true) → validBinding x = true →
      (∀ p, p < 38 → x.getLsbD p = target.getLsbD p) ∧ readbackIndex x = index ∧ readbackTag x = tag ∧
        ∀ p ∈ resumeRemaining target x, 38 ≤ p

/-- The blow order (R46) and the remaining set (R47): the positions 0..191 once each, ascending but for 47 at the end; the
remaining set of a fresh bind is every targeted position, that of a resume every targeted position that read intact; the
phases are BIND for 0..37, BURN for 48..191 and LOCK for 47, and every phase of every image holds a targeted position. -/
def Obligations.BlowOrderAndRemainingSet : Prop :=
  (∀ p, p ∈ blowOrder ↔ p < 192) ∧
    blowOrder.Pairwise (fun p q => (q = 47 ∨ p < q) ∧ p ≠ 47) ∧
    (∀ (target x : Image) (p : Nat),
      (p ∈ freshRemaining target ↔ p < 192 ∧ target.getLsbD p = true) ∧
        (p ∈ resumeRemaining target x ↔ p < 192 ∧ target.getLsbD p = true ∧ x.getLsbD p = false)) ∧
    (∀ p, (p < 38 → phaseOf p = .bind) ∧ (48 ≤ p → p < 192 → phaseOf p = .burn)) ∧ phaseOf 47 = .lock ∧
    ∀ (tag : Byte) (index : Nat) (k : Key), index < 2 ^ 24 → ∀ phase ∈ [SiteState.bind, .burn, .lock],
      ∃ p ∈ freshRemaining (composeTarget tag index k), phaseOf p = phase

/-- The result of a verify read (R52), in its order: the lowest other position of the word that reads blown though intact in
the target or still to be blown after p; else whether p reads blown. -/
def Obligations.VerifyReadResults : Prop :=
  ∀ (target : Image) (p : Nat) (after : List Nat) (word : Half) (bad : Nat → Bool), p < 192 →
    (∀ b, bad b = (word.getLsbD b && decide (p / 16 * 16 + b ≠ p) &&
      (!target.getLsbD (p / 16 * 16 + b) || decide (p / 16 * 16 + b ∈ after)))) →
    (∀ q, verifyTest target p after word = .unexpectedBlow q ↔
      ∃ b, b < 16 ∧ q = p / 16 * 16 + b ∧ bad b = true ∧ ∀ c, c < b → bad c = false) ∧
    (verifyTest target p after word = .notBlown ↔ (∀ b, b < 16 → bad b = false) ∧ word.getLsbD (p % 16) = false) ∧
    (verifyTest target p after word = .verified ↔ (∀ b, b < 16 → bad b = false) ∧ word.getLsbD (p % 16) = true)

/-- The tests on a readback: blank (R49), valid binding with its index and tag (R50), overblown with its lowest failing
position (R54), the HIGH test of the final check (R53), the lock test and the blown count (R55). -/
def Obligations.ReadbackTests : Prop :=
  ∀ x target : Image,
    (isBlank x = true ↔ ∀ p, p < 192 → x.getLsbD p = false) ∧
    (isBlank x = true → validBinding x = false) ∧
    (validBinding x = true ↔
      (x.extractLsb' 32 6).toNat = (List.range 32).countP (fun p => !x.getLsbD p)) ∧
    (∀ b, (readbackIndex x).testBit b = (decide (b < 24) && x.getLsbD b)) ∧
    (∀ b, b < 8 → (readbackTag x).getLsbD b = x.getLsbD (24 + b)) ∧
    (∀ p, overblownAt target x = some p ↔
      p < 192 ∧ x.getLsbD p = true ∧ target.getLsbD p = false ∧
        ∀ q, q < p → x.getLsbD q = true → target.getLsbD q = true) ∧
    (∀ p, underblownAt target x = some p ↔
      p < 192 ∧ target.getLsbD p = true ∧ x.getLsbD p = false ∧
        ∀ q, q < p → target.getLsbD q = true → x.getLsbD q = true) ∧
    isLocked x = x.getLsbD 47 ∧ blownCount x = (List.range 192).countP (fun p => x.getLsbD p)

/-! ## Product profiles and pulse widths -/

/-- The structural faults in their order (R63), the windows by the overlap of R64: a window overlaps exactly when it shares a
fuse with the image span. -/
def Obligations.ProfileFaultsInOrder : Prop :=
  ∀ (u : Profile) (capacity : Nat) (w0 w1 w2 w3 : Window) (reversed overlaps : Window → Bool),
    u.windows = [w0, w1, w2, w3] →
    (∀ w, reversed w = (w.enabled && decide (w.last.toNat < w.first.toNat))) →
    (∀ w, overlaps w = true ↔
      w.enabled = true ∧ ∃ p, p < 192 ∧ w.first.toNat ≤ 16 * u.baseWord + p ∧ 16 * u.baseWord + p ≤ w.last.toNat) →
    ([(decide (u.dieType = 0), 1), (decide (u.minWords < u.baseWord + 12), 2), (reversed w0, 16), (overlaps w0, 32),
        (reversed w1, 17), (overlaps w1, 33), (reversed w2, 18), (overlaps w2, 34), (reversed w3, 19), (overlaps w3, 35),
        (decide (capacity < u.draw), 3)].find? (·.1)).map (·.2) =
      if faultCode u capacity = 0 then none else some (faultCode u capacity)

/-- The window part of the law of safe arming (R65): in a profile that passes, no fuse of the image span lies in an enabled
window, and every fuse of the span is below 4096 (R58). -/
def Obligations.PassingProfileKeepsWindowsClear : Prop :=
  ∀ (stored : StoredProfile) (capacity : Nat) (u : Profile), u = usedProfile stored → stored.windows.length = 4 →
    faultCode u capacity = 0 →
    (∀ w ∈ u.windows, w.enabled = true → ∀ p, p < 192 →
      ¬ (w.first.toNat ≤ 16 * u.baseWord + p ∧ 16 * u.baseWord + p ≤ w.last.toNat)) ∧
      u.baseWord ≤ 244 ∧ ∀ p, p < 192 → 16 * u.baseWord + p < 4096

/-- A profile record as read (R57, R58, R61, R158): each field from the bits of its own word; the used value of each (R59,
R60); and the clamp mask (R62), each bit of which is 1 exactly when the stored value of its field lies outside its range. -/
def Obligations.ProfileRecordIsReadAndClamped : Prop :=
  (∀ (s : State) (k a : Nat) (p : StoredProfile), a = 0x800 + 128 * k → p = readProfile s k →
    p.dieType = (readRam s a).extractLsb' 0 16 ∧ p.minWords = readRam s (a + 0x04) ∧ p.baseWord = readRam s (a + 0x08) ∧
      p.baseWidth = readRam s (a + 0x0C) ∧ p.refTemp = readRam s (a + 0x10) ∧ p.gain = readRam s (a + 0x14) ∧
      p.draw = readRam s (a + 0x18) ∧ p.maxAttempts = (readRam s (a + 0x1C)).extractLsb' 0 3 ∧
      p.responseLimit = readRam s (a + 0x20) ∧ p.windows.length = 4 ∧
      ∀ (w : Nat) (v : Window), p.windows[w]? = some v →
        (v.enabled = true ↔ readRam s (a + 0x24 + 12 * w) ≠ 0) ∧
          v.first = (readRam s (a + 0x28 + 12 * w)).extractLsb' 0 16 ∧
          v.last = (readRam s (a + 0x2C + 12 * w)).extractLsb' 0 16) ∧
    ∀ (p : StoredProfile) (capacity : Word),
      usedProfile p =
        { dieType := p.dieType
          minWords := max 16 (min 256 p.minWords.toNat)
          baseWord := p.baseWord.toNat
          baseWidth := max 10 (min 2000 p.baseWidth.toNat)
          refTemp := max (-40) (min 150 p.refTemp.toInt)
          gain := min 31 p.gain.toNat
          draw := max 5 (min 1000 p.draw.toNat)
          maxAttempts := max 1 (min 3 p.maxAttempts.toNat)
          responseLimit := max 2 (min 1000 p.responseLimit.toNat)
          windows := p.windows } ∧
      ∀ k, (clampMask p capacity).testBit k = true ↔
        (k = 0 ∧ ¬ (16 ≤ p.minWords.toNat ∧ p.minWords.toNat ≤ 256)) ∨
        (k = 1 ∧ ¬ (10 ≤ p.baseWidth.toNat ∧ p.baseWidth.toNat ≤ 2000)) ∨
        (k = 2 ∧ ¬ (-40 ≤ p.refTemp.toInt ∧ p.refTemp.toInt ≤ 150)) ∨
        (k = 3 ∧ ¬ (p.gain.toNat ≤ 31)) ∨
        (k = 4 ∧ ¬ (5 ≤ p.draw.toNat ∧ p.draw.toNat ≤ 1000)) ∨
        (k = 5 ∧ ¬ (1 ≤ p.maxAttempts.toNat ∧ p.maxAttempts.toNat ≤ 3)) ∨
        (k = 6 ∧ ¬ (2 ≤ p.responseLimit.toNat ∧ p.responseLimit.toNat ≤ 1000)) ∨
        (k = 7 ∧ ¬ (10 ≤ capacity.toNat ∧ capacity.toNat ≤ 4000))

/-- The widths (R128 to R130): Tdeg, the factor, W1 in 5..4000, the width of each attempt, and the law of pulse width: every
width is 5..4000 ticks and none is below that of an earlier attempt. The slot total (R118): S = min(16, C / D) for the used
capacity and draw; for a profile that passes S is at least 1, and the peak current S × D does not exceed C (R119). -/
def Obligations.WidthsAndSlotTotalFollowTheArithmetic : Prop :=
  ∀ (stored : StoredProfile) (u : Profile), u = usedProfile stored →
    (∀ reading deg f w : Int,
      deg = max (-40) (min 150 (reading.fdiv 16)) → f = max 128 (min 512 (256 + (u.gain : Int) * (u.refTemp - deg))) →
      w = ((u.baseWidth : Int) * f).fdiv 256 →
      5 ≤ w ∧ w ≤ 4000 ∧
        (pulseWidth u reading 1 : Int) = w ∧ (pulseWidth u reading 2 : Int) = min 4000 ((3 * w).fdiv 2) ∧
        (pulseWidth u reading 3 : Int) = min 4000 (2 * w) ∧
        ∀ a, 1 ≤ a → a ≤ 3 → 5 ≤ pulseWidth u reading a ∧ pulseWidth u reading a ≤ 4000 ∧
          (a < 3 → pulseWidth u reading a ≤ pulseWidth u reading (a + 1))) ∧
    ∀ (capacity : Word) (c : Nat), c = max 10 (min 4000 capacity.toNat) →
      u.draw = max 5 (min 1000 stored.draw.toNat) ∧ usedCapacity capacity = c ∧
        slotTotalOf c u.draw = min 16 (c / u.draw) ∧ slotTotalOf c u.draw * u.draw ≤ c ∧
        (faultCode u c = 0 → 1 ≤ slotTotalOf c u.draw)

/-- VALIDATE_PROFILE (R66): above 7 BAD_PARAMETER with detail 1 and no result words; otherwise DONE with the profile number
and the four result words. Nothing but the answer changes. -/
def Obligations.ValidateProfileReports : Prop :=
  ∀ (s : State) (n : Word) (p : StoredProfile) (fault mask : Nat), s.ram.wf → requestLaw s → posted s 5 →
    n = readRam s 0x48 → p = readProfile s n.toNat → fault = faultCode (usedProfile p) (usedCapacity (readRam s 0x88)) →
    mask = clampMask p (readRam s 0x88) →
    ∃ t, exec .validateProfile s = .next t ∧
      t = { s with ram := t.ram, requests := t.requests, attention := s.attention ||| 2 } ∧
      ramOutside s t [answerFields] ∧
      (7 < n.toNat → answered s t (postedSequence s) .badParameter 1 []) ∧
      (n.toNat ≤ 7 →
        answered s t (postedSequence s) .done n
          [BitVec.ofNat 32 fault, BitVec.ofNat 32 mask,
            if fault = 0 then BitVec.ofNat 32 (slotTotalOf (usedCapacity (readRam s 0x88)) (usedProfile p).draw) else 0,
            if fault = 1 ∨ fault = 2 then 0 else BitVec.ofNat 32 (16 * (usedProfile p).baseWord)])

/-! ## The lot -/

/-- OPEN_LOT (R3, R4, R67): the checks in their order with the answer of the first that fails, which changes nothing else;
when all pass, the lot is OPEN with the range of the descriptor and the profile copy, S follows R118, and the answer is DONE
with the clamp mask, S and the number of indices. That bits 24..31 of the answer word are written 0 is the model's choice
(notes/assumptions/27.md). -/
def Obligations.OpenLotChecksAndOpens : Prop :=
  ∀ (s : State) (number first last profile : Word) (p : StoredProfile) (fault mask slots : Nat)
    (checks : List (Bool × AnswerCode × Word × List Word)), s.ram.wf → requestLaw s → posted s 1 →
    number = readRam s 0x100 → first = readRam s 0x104 → last = readRam s 0x108 → profile = readRam s 0x10C →
    p = readProfile s profile.toNat → fault = faultCode (usedProfile p) (usedCapacity (readRam s 0x88)) →
    mask = clampMask p (readRam s 0x88) → slots = slotTotalOf (usedCapacity (readRam s 0x88)) (usedProfile p).draw →
    checks =
      [(decide (s.lot.state ≠ .noLot), .badState, 1, []),
       (decide (s.derivation.state ≠ .sealed), .badState, 2, []),
       (decide (number = 0), .badParameter, 1, []),
       (decide (last.toNat < first.toNat), .badParameter, 2, []),
       (decide (0xFFFFFF < last.toNat), .badParameter, 3, []),
       (decide (7 < profile.toNat), .badParameter, 4, []),
       (decide (fault ≠ 0), .badParameter, 5, [BitVec.ofNat 32 fault, BitVec.ofNat 32 mask])] →
    ∃ t, exec .openLot s = .next t ∧
      t = { s with
        ram := t.ram, requests := t.requests, attention := s.attention ||| 2, lot := t.lot, rail := t.rail } ∧
      ramOutside s t [answerFields] ∧ (readRam t 0x7C).extractLsb' 24 8 = 0 ∧
      (∀ code detail results, checks.find? (·.1) = some (true, code, detail, results) →
        t.lot = s.lot ∧ t.rail = s.rail ∧ answered s t (postedSequence s) code detail results) ∧
      (checks.find? (·.1) = none →
        t.lot =
          { state := .opened, number := number, first := first.toNat, last := last.toNat, profile := usedProfile p,
            nextIndex := first.toNat, committed := 0, spoiled := 0, freshBound := 0, resumeList := [],
            closureList := [] } ∧
          t.rail = { s.rail with slotTotal := slots } ∧
          answered s t (postedSequence s) .done (BitVec.ofNat 32 mask)
            [BitVec.ofNat 32 slots, BitVec.ofNat 32 (last.toNat - first.toNat + 1)])

/-- CLOSE_LOT (R18, R20): in NO_LOT it is BAD_STATE; with the touchdown in IDLE or WAIT_LIFT an OPEN lot closes at once; in
SETTLING or ACTIVE it becomes DRAINING, and the request stays in progress unanswered (R172), kept with the eight parameter
words of the slot (R166). -/
def Obligations.CloseLotClosesOrDrains : Prop :=
  ∀ s : State, s.ram.wf → requestLaw s → posted s 2 →
    ∃ t, exec .closeLot s = .next t ∧
      (s.lot.state = .noLot →
        t = { s with ram := t.ram, requests := t.requests, attention := s.attention ||| 2 } ∧
          answered s t (postedSequence s) .badState 0 [] ∧ ramOutside s t [answerFields]) ∧
      (s.lot.state = .opened → s.touchdown.state = .idle ∨ s.touchdown.state = .waitLift →
        lotClosed s t (postedSequence s)) ∧
      (s.lot.state = .opened → s.touchdown.state = .settling ∨ s.touchdown.state = .active →
        t = { s with
          lot := { s.lot with state := .draining }
          requests := { s.requests with
            busy := true
            inProgress := some {
              code := 2, params := (List.range 8).map fun k => readRam s (0x48 + 4 * k), sequence := postedSequence s } } })

/-- SPOIL_INDEX (R16): the checks in their order, each with its answer; an unclaimed listed index is spoiled, its entry is
removed and the gap closes, and the answer is DONE with BY_REQUEST, the index and the spoiled count. -/
def Obligations.SpoilIndexChecksAndSpoils : Prop :=
  ∀ (s : State) (n : Word), s.ram.wf → requestLaw s → posted s 3 → n = readRam s 0x48 →
    ∃ t, exec .spoilIndex s = .next t ∧
      t = { s with ram := t.ram, requests := t.requests, attention := s.attention ||| 2, lot := t.lot } ∧
      ramOutside s t [answerFields] ∧
      (s.lot.state = .noLot → t.lot = s.lot ∧ answered s t (postedSequence s) .badState 0 []) ∧
      (s.lot.state ≠ .noLot → 0xFFFFFF < n.toNat →
        t.lot = s.lot ∧ answered s t (postedSequence s) .badParameter 0 []) ∧
      (s.lot.state ≠ .noLot → n.toNat ≤ 0xFFFFFF → (∀ e ∈ s.lot.resumeList, e.index ≠ n.toNat) →
        t.lot = s.lot ∧ answered s t (postedSequence s) .notHeld 0 []) ∧
      ∀ before e after, s.lot.state ≠ .noLot → n.toNat ≤ 0xFFFFFF → s.lot.resumeList = before ++ e :: after →
        e.index = n.toNat → (∀ x ∈ before, x.index ≠ n.toNat) →
        (∀ i : Site, e.claimedBy = some i →
          t.lot = s.lot ∧ answered s t (postedSequence s) .inUse (BitVec.ofNat 32 i.val) []) ∧
        (e.claimedBy = none →
          t.lot = { s.lot with spoiled := s.lot.spoiled + 1, resumeList := before ++ after } ∧
            answered s t (postedSequence s) .done 9 [n, BitVec.ofNat 32 (s.lot.spoiled + 1)])

/-- LIST_RESUME (R17): in NO_LOT it is BAD_STATE; otherwise the copy holds the entries in list order, every word of each, and
zero up to the 64th place, and the answer is DONE with the number of entries. No index changes. -/
def Obligations.ListResumeCopiesTheList : Prop :=
  ∀ s : State, s.ram.wf → requestLaw s → posted s 4 →
    ∃ t, exec .listResume s = .next t ∧
      t = { s with ram := t.ram, requests := t.requests, attention := s.attention ||| 2 } ∧
      (s.lot.state = .noLot → answered s t (postedSequence s) .badState 0 [] ∧ ramOutside s t [answerFields]) ∧
      (s.lot.state ≠ .noLot →
        answered s t (postedSequence s) .done 0 [BitVec.ofNat 32 s.lot.resumeList.length] ∧
          ramOutside s t [answerFields, (0x3000, 0x800)] ∧
          (∀ (k a : Nat) (e : ResumeEntry), k < 64 → s.lot.resumeList[k]? = some e → a = 0x3000 + 32 * k →
            readRam t a = BitVec.ofNat 32 e.index ∧ readRam t (a + 4) = e.waferId ∧
            readRam t (a + 8) = e.dieX.signExtend 32 ∧ readRam t (a + 12) = e.dieY.signExtend 32 ∧
            readRam t (a + 16) = BitVec.ofNat 32 e.count ∧
            readRam t (a + 20) = (if e.claimedBy = none then 0 else 1) ∧
            readRam t (a + 24) = BitVec.ofNat 32 ((e.claimedBy.map (·.val)).getD 0) ∧ readRam t (a + 28) = 0) ∧
          ∀ a, 0x3000 + 32 * s.lot.resumeList.length ≤ a → a < 0x3800 → readByte t.ram a = 0)

/-- FRESH_CLAIM (R6, R96, R112): NO_INDEX when the range is exhausted, else LOT_CLOSING while DRAINING, else the site is
granted next_index, which rises by 1 with the fresh-bound count, and asks for its key. A channel that was interrupted before
the answer disposes of what the answer gave it. -/
def Obligations.FreshClaimGrantsOrRefuses : Prop :=
  ∀ (i : Site) (s : State) (c : SiteChannel), s.ram.wf → c = channelOf s i → c.activity = .claimingFresh →
    s.lot.state ≠ .noLot →
    ∃ t, exec (.freshClaim i) s = .next t ∧ t = { s with ram := t.ram, channels := t.channels, lot := t.lot } ∧
      sitesElse s t i ∧
      (s.lot.nextIndex = s.lot.last + 1 → c.interruption = none → t.lot = s.lot ∧ diedWith s t i c .noIndex .none) ∧
      (s.lot.nextIndex ≠ s.lot.last + 1 → s.lot.state = .draining → c.interruption = none →
        t.lot = s.lot ∧ diedWith s t i c .lotClosing .none) ∧
      (s.lot.nextIndex = s.lot.last + 1 ∨ s.lot.state = .draining → c.interruption ≠ none →
        t.lot = s.lot ∧ disposed s t i c) ∧
      (s.lot.nextIndex ≠ s.lot.last + 1 → s.lot.state = .opened →
        t.lot = { s.lot with nextIndex := s.lot.nextIndex + 1, freshBound := s.lot.freshBound + 1 } ∧
          ∀ d : SiteChannel,
            d = { c with
              bound := some { index := s.lot.nextIndex, kind := .fresh }, pulseGranted := false, activity := .askingKey } →
            (c.interruption = none → t.ram = s.ram ∧ channelOf t i = d) ∧
            (c.interruption ≠ none → disposed s t i d))

/-- RESUME_CLAIM (R10, R97, R112) for the index n of the readback: not listed, the die ends LOCKED_DIE or NOT_BLANK; a
claimed entry or another wafer id or coordinates, BINDING_MISMATCH; else the entry becomes claimed by the site, its place
kept, and the site holds the resumed index and asks for its key. -/
def Obligations.ResumeClaimGrantsOrRefuses : Prop :=
  ∀ (i : Site) (s : State) (c : SiteChannel) (n : Nat), s.ram.wf → c = channelOf s i → c.activity = .claimingResume →
    s.lot.state ≠ .noLot → n = readbackIndex c.readback →
    ∃ t, exec (.resumeClaim i) s = .next t ∧ t = { s with ram := t.ram, channels := t.channels, lot := t.lot } ∧
      sitesElse s t i ∧
      ((∀ e ∈ s.lot.resumeList, e.index ≠ n) →
        t.lot = s.lot ∧
          (c.interruption = none → validBinding c.readback = true →
            diedWith s t i
              { c with figures := { c.figures with readbackBinding := some (n, readbackTag c.readback) } }
              (if isLocked c.readback then .lockedDie else .notBlank) .none) ∧
          (c.interruption ≠ none → disposed s t i c)) ∧
      ∀ before e after, s.lot.resumeList = before ++ e :: after → e.index = n →
        (∀ x ∈ before ++ after, x.index ≠ n) →
        (¬ (e.claimedBy = none ∧ e.waferId = c.waferId ∧ e.dieX = c.dieX ∧ e.dieY = c.dieY) →
          t.lot = s.lot ∧
            (c.interruption = none →
              diedWith s t i
                { c with figures := { c.figures with readbackBinding := some (n, readbackTag c.readback) } }
                .bindingMismatch .none) ∧
            (c.interruption ≠ none → disposed s t i c)) ∧
        (e.claimedBy = none ∧ e.waferId = c.waferId ∧ e.dieX = c.dieX ∧ e.dieY = c.dieY →
          t.lot = { s.lot with resumeList := before ++ { e with claimedBy := some i } :: after } ∧
            ∀ d : SiteChannel,
              d = { c with bound := some { index := n, kind := .resumed }, activity := .askingKey } →
              (c.interruption = none → t.ram = s.ram ∧ channelOf t i = d) ∧
              (c.interruption ≠ none → disposed s t i d))

/-- HOLD, RELEASE, COMMIT and SPOIL (R9, R11, R12, R13): what each does to the counts and the list, by the kind of the index,
and the disposition with which the site's record is written (R107). A full list spoils a held index, and a third
interruption a released one. That the bits of the record's words that the layout does not name are written 0 is the model's
choice (notes/assumptions/28.md). The record carries the coordinates of the plan copy, which the channel holds for it
(R183; where they are held is the model's choice, notes/assumptions/29.md), and the plan entries stand. With it, the codes of
the outcomes, dispositions and spoil causes (R13, R108). -/
def Obligations.ReportsSettleTheIndex : Prop :=
  ([Outcome.provisioned, .resumed, .readDone, .skipped, .notFitted, .noContact, .noLot, .wrongDie, .linkFail, .noIndex,
        .lotClosing, .notBlank, .lockedDie, .bindingMismatch, .overblown, .dieRefused, .burnFail, .verifyFail,
        .interrupted].map Outcome.code =
      [1, 2, 3, 4, 5, 6, 7, 8, 9, 10, 11, 12, 13, 14, 15, 16, 17, 18, 19] ∧
    [Disposition.none, .committed, .spoiled, .held, .read].map Disposition.code = [0, 1, 2, 3, 4] ∧
    [SpoilCause.neverBurned, .bindingCut, .resumeListFull, .resumeLimit, .overblown, .burnFail, .dieRefused, .verifyFail,
        .byRequest, .lotClosed, .reset].map SpoilCause.code =
      [1, 2, 3, 4, 5, 6, 7, 8, 9, 10, 11]) ∧
  ∀ (i : Site) (s : State) (c : SiteChannel) (b : BoundIndex) (command : Instr) (report : Report), s.ram.wf →
    c = channelOf s i → s.lot.state ≠ .noLot → c.bound = some b → c.activity = .reporting report →
    (command, report) ∈ [(Instr.hold i, Report.hold), (.release i, .release), (.commit i, .commit)] ∨
      (∃ cause, command = .spoil i ∧ report = .spoil cause) →
    ∃ t, exec command s = .next t ∧ t = { s with ram := t.ram, channels := t.channels, lot := t.lot } ∧
      sitesElse s t i ∧ recordRestZero t i ∧ (∀ f j, planCoordinates t f j = planCoordinates s f j) ∧
      (b.kind = .fresh → s.lot.freshBound ≠ 0 → ∀ l : LotController,
        l = { s.lot with freshBound := s.lot.freshBound - 1 } →
        (report = .commit → t.lot = { l with committed := s.lot.committed + 1 } ∧ siteFinished s t i c .committed none) ∧
        (∀ cause, report = .spoil cause →
          t.lot = { l with spoiled := s.lot.spoiled + 1 } ∧ siteFinished s t i c .spoiled (some cause)) ∧
        (report = .hold → s.lot.resumeList.length < 64 →
          t.lot =
              { l with
                resumeList := s.lot.resumeList ++
                  [{ index := b.index, waferId := c.waferId, dieX := c.dieX, dieY := c.dieY, count := 1,
                     claimedBy := none }] } ∧
            siteFinished s t i c .held none) ∧
        (report = .hold → 64 ≤ s.lot.resumeList.length →
          t.lot = { l with spoiled := s.lot.spoiled + 1 } ∧ siteFinished s t i c .spoiled (some .resumeListFull))) ∧
      (b.kind = .resumed → ∀ before e after, s.lot.resumeList = before ++ e :: after → e.index = b.index →
        (∀ x ∈ before ++ after, x.index ≠ b.index) →
        (report = .commit →
          t.lot = { s.lot with committed := s.lot.committed + 1, resumeList := before ++ after } ∧
            siteFinished s t i c .committed none) ∧
        (∀ cause, report = .spoil cause →
          t.lot = { s.lot with spoiled := s.lot.spoiled + 1, resumeList := before ++ after } ∧
            siteFinished s t i c .spoiled (some cause)) ∧
        (report = .release → e.count < 2 →
          t.lot = { s.lot with resumeList := before ++ { e with claimedBy := none, count := e.count + 1 } :: after } ∧
            siteFinished s t i c .held none) ∧
        (report = .release → 2 ≤ e.count →
          t.lot = { s.lot with spoiled := s.lot.spoiled + 1, resumeList := before ++ after } ∧
            siteFinished s t i c .spoiled (some .resumeLimit)))

/-! ## The touchdown -/

/-- The CONTACT line (R70): a rise in IDLE begins a touchdown and asserts HOLDOFF (R72), and in ACTIVE it is an overlap (R81);
a fall in SETTLING is a bounce (R73), in ACTIVE an early lift while some channel is not DONE
(R79), in WAIT_LIFT the end of the touchdown (R85), and in IDLE the level alone. A DRAINING lot closes at a bounce (R19).
During a start-up or a soft reset no edge is taken (R69, R87). With it, how a counter of the touchdown controller or of a port
counts: it stops at 2^32 - 1 (R86, R151). Two clauses are the model's choice: a rise in SETTLING or WAIT_LIFT, which R70 and
R85 say does not occur, is the level alone (notes/assumptions/4.md, notes/assumptions/16.md); and a rise in ACTIVE is an overlap
also after a fall that was no early lift, every channel being DONE (notes/assumptions/9.md). -/
def Obligations.ContactEdgesAreTaken : Prop :=
  (∀ x : Word, saturatingInc x = if x = 0xFFFFFFFF then x else x + 1) ∧
  ∀ (s u : State) (d : TouchdownController),
    (s.contactLine = false → u = { s with contactLine := true, touchdown := d } →
      (s.phase ≠ .running → d = s.touchdown → exec .contactRise s = .next u) ∧
      (s.phase = .running → s.touchdown.state = .idle →
        d = { s.touchdown with
          contactLevel := true
          total := saturatingInc s.touchdown.total
          number := saturatingInc s.touchdown.total
          endReason := none
          abortPending := false
          holdoff := true
          state := .settling
          settleTimer := some (min 10000 (readRam s 0x80).toNat) } → exec .contactRise s = .next u) ∧
      (s.phase = .running → s.touchdown.state = .active →
        d = { s.touchdown with contactLevel := true, overlapped := saturatingInc s.touchdown.overlapped } →
        exec .contactRise s = .next u) ∧
      (s.phase = .running → s.touchdown.state = .settling ∨ s.touchdown.state = .waitLift →
        d = { s.touchdown with contactLevel := true } → exec .contactRise s = .next u)) ∧
    (s.contactLine = true → u = { s with contactLine := false, touchdown := d } →
      (s.phase ≠ .running → d = s.touchdown → exec .contactFall s = .next u) ∧
      (s.phase = .running → s.touchdown.state = .idle → d = { s.touchdown with contactLevel := false } →
        exec .contactFall s = .next u) ∧
      (s.phase = .running → s.touchdown.state = .waitLift → d = { s.touchdown with contactLevel := false, state := .idle } →
        exec .contactFall s = .next u) ∧
      (s.phase = .running → s.touchdown.state = .settling →
        d = { s.touchdown with
          contactLevel := false
          settleTimer := none
          bounced := saturatingInc s.touchdown.bounced
          holdoff := false
          state := .idle } →
        (s.lot.state ≠ .draining → exec .contactFall s = .next u) ∧
        (s.ram.wf → s.lot.state = .draining → ∀ r, s.requests.inProgress = some r →
          ∃ v, lotClosed u v r.sequence ∧ settlesIn (exec .contactFall s) v)) ∧
      (s.phase = .running → s.touchdown.state = .active →
        (s.touchdown.endReason ≠ none ∨ (∀ i, (channelOf s i).state = .done)) →
        d = { s.touchdown with contactLevel := false } → exec .contactFall s = .next u) ∧
      (s.phase = .running → s.touchdown.state = .active → s.touchdown.endReason = none →
        (∃ i, (channelOf s i).state ≠ .done) →
        d = { s.touchdown with contactLevel := false, endReason := some .earlyLift } →
        ∃ t, exec .contactFall s = .next t ∧ t = { u with channels := t.channels } ∧
          ∀ i, channelOf t i =
            if (channelOf s i).state = .done then channelOf s i
            else { channelOf s i with interruptSent := some .earlyLift }))

/-- SETTLE_EXPIRY, the latch moment (R74 to R78, R92). The reading and the contact sense of the fitted sites are latched
together (u), the slot is examined (v), and the frame of the take pointer is considered. Not ARMED: no plan, and the touchdown
goes to WAIT_LIFT, where a DRAINING lot closes. ARMED: the take fields are written, the frame is ACTIVE, the take pointer
turns, and every channel starts from the power-on values with its plan entry, ending at once on the first of NOT_FITTED,
SKIPPED, NO_CONTACT and NO_LOT, and naming its IDENT otherwise. A site of `late` that comes to its lot check stays in PROBE
with the check to come (R5); that it is an operand which sites these are is the model's choice (notes/assumptions/26.md). The
coordinates with which a channel works, and which its record carries, are those of the plan entry, whatever location the plan
was armed for (R183; where a record's coordinates are held is the model's choice, notes/assumptions/29.md). -/
def Obligations.SettleExpiryTakesTheFrame : Prop :=
  ∀ (sense late : SiteSet) (s u : State) (f : Fin 2), s.ram.wf → s.phase = .running → s.touchdown.state = .settling →
    s.touchdown.settleTimer ≠ none → f = s.touchdown.takePointer →
    u = { s with touchdown := { s.touchdown with
      settleTimer := none, latchedTemp := s.reading, latchedContact := u.touchdown.latchedContact } } →
    (∀ k, k < 16 →
      u.touchdown.latchedContact.getLsbD k = (sense.getLsbD k && decide (k ≤ s.straps.population.toNat))) →
    ∃ v, exec (.notify 0) u = .next v ∧
      (readRam v (0x1000 + 0x1000 * f.val) ≠ 1 → ∀ w : State,
        w = { v with
          attention := v.attention ||| 4
          touchdown := { v.touchdown with
            planless := saturatingInc v.touchdown.planless, holdoff := false, state := .waitLift } } →
        (v.lot.state ≠ .draining → exec (.settleExpiry ⟨sense, late⟩) s = .next w) ∧
        (v.lot.state = .draining → ∀ r, v.requests.inProgress = some r →
          ∃ x, lotClosed w x r.sequence ∧ settlesIn (exec (.settleExpiry ⟨sense, late⟩) s) x)) ∧
      (readRam v (0x1000 + 0x1000 * f.val) = 1 → ∀ base, base = 0x1000 + 0x1000 * f.val →
        ∃ t, exec (.settleExpiry ⟨sense, late⟩) s = .next t ∧
          t = { v with
            ram := t.ram
            channels := t.channels
            touchdown := { v.touchdown with
              hostTag := readRam v (base + 4)
              waferId := readRam v (base + 8)
              activeFrame := some f
              takePointer := f + 1
              state := .active } } ∧
          readRam t base = 2 ∧ readRam t (base + 0x0C) = v.touchdown.number ∧
          readRam t (base + 0x10) = BitVec.ofInt 32 v.touchdown.latchedTemp ∧
          readRam t (base + 0x14) = (if v.lot.state = .noLot then 0 else v.lot.number) ∧
          ramOutside v t [(base, 4), (base + 0x0C, 12), (base + 0x200, 0x400)] ∧
          (∀ i, planCoordinates t f i = ((channelOf t i).dieX, (channelOf t i).dieY)) ∧
          ∀ (i : Site) (fitted : Bool) (action : Word) (c : SiteChannel),
            fitted = decide (i.val ≤ v.straps.population.toNat) → action = readRam v (base + 0x40 + 16 * i.val) →
            c = { SiteChannel.afterPowerOn with
              state := .probe
              action := action
              dieX := (readRam v (base + 0x44 + 16 * i.val)).extractLsb' 0 16
              dieY := (readRam v (base + 0x48 + 16 * i.val)).extractLsb' 0 16
              waferId := readRam v (base + 8)
              contact := fitted && v.touchdown.latchedContact.getLsbD i.val
              recordCoordinates := (channelOf v i).recordCoordinates } →
            (∀ outcome,
              [(!fitted, Outcome.notFitted), (decide (action ≠ 1 ∧ action ≠ 2), .skipped), (!c.contact, .noContact),
                (!late.getLsbD i.val && decide (v.lot.state = .noLot), .noLot)].find? (·.1) = some (true, outcome) →
              channelOf t i =
                  { c with
                    outcome := some outcome, state := .done, activity := .finished
                    recordCoordinates := Vector.ofFn fun g =>
                      if g = f then some (c.dieX, c.dieY) else c.recordCoordinates[g] } ∧
                recordWritten t i { c with outcome := some outcome } .none none) ∧
            (fitted = true → action = 1 ∨ action = 2 → c.contact = true → late.getLsbD i.val = true ∨ v.lot.state ≠ .noLot →
              channelOf t i =
                  (if late.getLsbD i.val then { c with activity := .starting }
                  else
                    { c with
                      dieType := v.lot.profile.dieType
                      minWords := v.lot.profile.minWords
                      baseWord := v.lot.profile.baseWord
                      maxAttempts := v.lot.profile.maxAttempts
                      activity := .naming .ident }) ∧
                ramOutside v t
                  [(base, 4), (base + 0x0C, 12), (base + 0x200, 64 * i.val), (base + 0x240 + 64 * i.val, 960 - 64 * i.val)]))

/-- SITE_DONE (R80): while another channel is not DONE its entry is taken and nothing else happens. With all in DONE (u) the
frame gets its end reason, the watermark, the host tag and DONE, FRAME_DONE is raised, HOLDOFF is deasserted, and the
touchdown goes to WAIT_LIFT or IDLE by the level; then an abort is answered (R84), and a DRAINING lot closes (R19). That the
frame is finished although entries of other sites are still to be taken, and takes them with it, is the model's choice
(notes/assumptions/8.md), and so is that the take record stands after the finish (notes/assumptions/30.md). The plan entries,
and the coordinates that the records carry, stand (R183). -/
def Obligations.SiteDoneFinishesTheFrame : Prop :=
  ∀ (i : Site) (s : State) (f : Fin 2) (base : Nat), s.ram.wf → s.phase = .running → s.touchdown.state = .active →
    (channelOf s i).activity = .finished → s.touchdown.activeFrame = some f → base = 0x1000 + 0x1000 * f.val →
    ((∃ j, (channelOf s j).state ≠ .done) →
      ∃ t, exec (.siteDone i) s = .next t ∧ t = { s with channels := t.channels } ∧ sitesElse s t i ∧
        channelOf t i = { channelOf s i with activity := .resting }) ∧
    ((∀ j, (channelOf s j).state = .done) →
      ∃ u : State,
        u = { s with
          ram := u.ram
          channels := u.channels
          attention := s.attention ||| 1
          touchdown := { s.touchdown with
            holdoff := false
            activeFrame := none
            state := if s.touchdown.contactLevel then .waitLift else .idle } } ∧
        (∀ j, channelOf u j =
          { channelOf s j with
            activity := if (channelOf s j).activity = .finished then .resting else (channelOf s j).activity }) ∧
        readRam u (base + 0x18) =
          (match s.touchdown.endReason with | none => 1 | some .earlyLift => 2 | some .aborted => 3) ∧
        (∀ l : LotController, l = s.lot →
          readRam u (base + 0x1C) = (if l.state = .noLot then 0 else BitVec.ofNat 32 l.nextIndex) ∧
          readRam u (base + 0x20) = (if l.state = .noLot then 0 else BitVec.ofNat 32 l.committed) ∧
          readRam u (base + 0x24) = (if l.state = .noLot then 0 else BitVec.ofNat 32 l.spoiled)) ∧
        readRam u (base + 4) = s.touchdown.hostTag ∧ readRam u base = 3 ∧
        ramOutside s u [(base, 8), (base + 0x18, 16)] ∧
        (∀ g j, planCoordinates u g j = planCoordinates s g j) ∧
        (s.touchdown.abortPending = false → s.lot.state ≠ .draining → exec (.siteDone i) s = .next u) ∧
        (s.touchdown.abortPending = false → s.lot.state = .draining → ∀ r, s.requests.inProgress = some r →
          ∃ x, lotClosed u x r.sequence ∧ settlesIn (exec (.siteDone i) s) x) ∧
        (s.touchdown.abortPending = true → s.lot.state ≠ .draining → ∀ r, s.requests.inProgress = some r →
          ∃ x : State,
            x = { u with
              ram := x.ram
              requests := x.requests
              attention := s.attention ||| 3
              touchdown := { u.touchdown with abortPending := false } } ∧
            answered u x r.sequence .done
              (match s.touchdown.endReason with | none => 1 | some .earlyLift => 2 | some .aborted => 3)
              [BitVec.ofNat 32 f.val, s.touchdown.number] ∧
            ramOutside u x [answerFields] ∧ settlesIn (exec (.siteDone i) s) x))

/-- ABORT_TOUCHDOWN (R82): outside ACTIVE it is BAD_STATE with the touchdown state. In ACTIVE the request stays in progress
(R172), kept with the eight parameter words of the slot (R166); with no end reason yet the reason becomes ABORTED, and every
channel that is not DONE is sent an interruption. -/
def Obligations.AbortTouchdownInterruptsTheSites : Prop :=
  ∀ s : State, s.ram.wf → requestLaw s → posted s 8 →
    ∃ t, exec .abortTouchdown s = .next t ∧
      (s.touchdown.state ≠ .active →
        t = { s with ram := t.ram, requests := t.requests, attention := s.attention ||| 2 } ∧
          answered s t (postedSequence s) .badState s.touchdown.state.code [] ∧ ramOutside s t [answerFields]) ∧
      (s.touchdown.state = .active →
        t = { s with
          channels := t.channels
          requests := { s.requests with
            busy := true
            inProgress := some {
              code := 8, params := (List.range 8).map fun k => readRam s (0x48 + 4 * k), sequence := postedSequence s } }
          touchdown := { s.touchdown with
            abortPending := true
            endReason := if s.touchdown.endReason = none then some .aborted else s.touchdown.endReason } } ∧
        ∀ i, channelOf t i =
          if s.touchdown.endReason = none ∧ (channelOf s i).state ≠ .done then
            { channelOf s i with interruptSent := some .aborted }
          else channelOf s i)

/-- INTERRUPTION (R109, R110, R112): a channel that was interrupted before, or that has begun to finish, takes it with no
effect. Otherwise the reason is recorded; an exchange is abandoned, and what has reached no other block is given up, and the
channel disposes of its index; a claim is awaited; a key request, a slot request and a pulse are withdrawn or cut first. Two
clauses are the model's choice: a request for a key or a slot that its block has not yet taken is given up at once
(notes/assumptions/24.md), and a channel waits for its withdrawal or cut before it disposes (notes/assumptions/7.md). -/
def Obligations.InterruptionGivesBackWhatIsOutstanding : Prop :=
  ∀ (i : Site) (s : State) (c d : SiteChannel) (reason : InterruptReason), s.ram.wf → c = channelOf s i →
    c.interruptSent = some reason → d = { c with interruptSent := none, interruption := some reason } →
    ∃ t, exec (.interruption i) s = .next t ∧ t = { s with ram := t.ram, channels := t.channels, ports := t.ports } ∧
      sitesElse s t i ∧ portsElse s t i ∧
      ((∀ task, c.activity ≠ .exchanging task) ∨ c.interruption ≠ none → portOf t i = portOf s i) ∧
      (c.interruption ≠ none ∨ c.activity = .resting ∨ c.activity = .finished ∨ (∃ r, c.activity = .reporting r) →
        t.ram = s.ram ∧ channelOf t i = { c with interruptSent := none }) ∧
      (c.interruption = none →
        c.activity = .starting ∨ (∃ task, c.activity = .naming task) ∨ c.activity = .askingKey ∨ c.activity = .askingSlot →
        disposed s t i d) ∧
      (c.interruption = none → (∃ task, c.activity = .exchanging task) →
        disposed s t i d ∧
          portOf t i =
            { portOf s i with
              phase := .idle, exchange := none, timer := none, testFrame := false, onRePoint := false }) ∧
      (c.interruption = none → ∀ a b : Activity,
        (a, b) ∈ [(Activity.claimingFresh, Activity.claimingFresh), (.claimingResume, .claimingResume),
          (.awaitingKey, .withdrawingKey), (.awaitingSlot, .withdrawingSlot), (.pulsing, .cutting)] →
        c.activity = a → t.ram = s.ram ∧ channelOf t i = { d with activity := b })

/-! ## The programming rail -/

/-- SLOT_REQUEST and SLOT_WITHDRAWAL (R120, R121, R123, R102): with a slot free, the hold clear and no site waiting the request
is granted at once: the slot count, the last granted site, the width of R130 and the channel's counts; otherwise the site
joins the waiting set. A withdrawal takes the site out of the set and nothing else of the rail changes. That the
channel waits for its SLOT_WITHDRAWAL and disposes of its index there is the model's choice (notes/assumptions/7.md). -/
def Obligations.SlotRequestsAreGrantedOrWait : Prop :=
  ∀ (i : Site) (s : State) (c : SiteChannel), c = channelOf s i →
    (c.activity = .askingSlot →
      ∃ t, exec (.slotRequest i) s = .next t ∧ t = { s with channels := t.channels, rail := t.rail } ∧ sitesElse s t i ∧
        (s.rail.slotsInUse < s.rail.slotTotal → s.rail.hold = false → (∀ j : Site, s.rail.waiting[j] = none) →
          t.rail =
              { s.rail with
                slotsInUse := s.rail.slotsInUse + 1
                lastGranted := i
                pulses := s.rail.pulses.set i (some (pulseWidth s.lot.profile s.touchdown.latchedTemp c.attempt)) } ∧
            channelOf t i =
              { c with
                activity := .pulsing
                pulseGranted := c.pulseGranted || decide (c.bound.map (·.kind) = some .fresh)
                figures := { c.figures with
                  pulses := c.figures.pulses + 1
                  rePulses := if 2 ≤ c.attempt then c.figures.rePulses + 1 else c.figures.rePulses } }) ∧
        (s.rail.slotTotal ≤ s.rail.slotsInUse ∨ s.rail.hold = true ∨ (∃ j : Site, s.rail.waiting[j] ≠ none) →
          t.rail = { s.rail with waiting := s.rail.waiting.set i (some c.attempt) } ∧
            channelOf t i = { c with activity := .awaitingSlot })) ∧
    (c.activity = .withdrawingSlot → s.ram.wf →
      ∃ t, exec (.slotWithdrawal i) s = .next t ∧
        t = { s with
          ram := t.ram, channels := t.channels, rail := { s.rail with waiting := s.rail.waiting.set i none } } ∧
        sitesElse s t i ∧ disposed s t i c)

/-- The round-robin scan (R122): from the site after the last-granted one, up by one and wrapping, the waiting sites are
granted while a slot is free, and none while the hold is set; every other site is as before. A granted site whose withdrawal is
on its way has its pulse counted as issued and then cut (R124; that the channel awaits the cut is the model's choice,
notes/assumptions/7.md). Every step keeps the law of the rail (R119). -/
def Obligations.ScanGrantsInRoundRobinOrder : Prop :=
  (∀ s t : State, workLaw s ∧ railLaw s → step s = .next t → railLaw t) ∧
  ∀ (s t : State) (granted : List Site), t = scan s →
    granted =
      (if s.rail.hold then []
       else (((List.range 16).map fun k => s.rail.lastGranted + 1 + Fin.ofNat 16 k).filter fun j =>
         (s.rail.waiting[j]).isSome).take (s.rail.slotTotal - s.rail.slotsInUse)) →
    t = { s with channels := t.channels, rail := t.rail } ∧
      t.rail = { s.rail with
        slotsInUse := s.rail.slotsInUse + granted.length
        lastGranted := granted.getLast?.getD s.rail.lastGranted
        waiting := t.rail.waiting
        pulses := t.rail.pulses } ∧
      (∀ j : Site, j ∉ granted →
        t.rail.waiting[j] = s.rail.waiting[j] ∧ t.rail.pulses[j] = s.rail.pulses[j] ∧ channelOf t j = channelOf s j) ∧
      ∀ (j : Site) (attempt : Nat), j ∈ granted → s.rail.waiting[j] = some attempt →
        t.rail.waiting[j] = none ∧
          t.rail.pulses[j] = some (pulseWidth s.lot.profile s.touchdown.latchedTemp attempt) ∧
          ∀ a b : Activity, (a, b) ∈ [(Activity.awaitingSlot, Activity.pulsing), (.withdrawingSlot, .cutting)] →
            (channelOf s j).activity = a →
            channelOf t j =
              { channelOf s j with
                activity := b
                pulseGranted :=
                  (channelOf s j).pulseGranted || decide ((channelOf s j).bound.map (·.kind) = some .fresh)
                figures := { (channelOf s j).figures with
                  pulses := (channelOf s j).figures.pulses + 1
                  rePulses :=
                    if 2 ≤ attempt then (channelOf s j).figures.rePulses + 1 else (channelOf s j).figures.rePulses } }

/-- PULSE_END and PULSE_CUT (R125, R126, R127, R178): the slot is freed, the die is no longer armed, the pulse counts down to
a mirror write, and a scan follows (v). At a pulse end a channel that waits for it goes on to its verify read (R103); after a
cut the channel disposes of its index, and a cut that finds no pulse does nothing at the rail. Three clauses are the model's
choice: a countdown that reaches 0 has its trigger in flight until MIRROR_COUNTDOWN_ZERO takes it (notes/assumptions/19.md);
the channel disposes of its index at its PULSE_CUT, after the scan; and a pulse that ends under its cut leaves the channel
awaiting it (both notes/assumptions/7.md). -/
def Obligations.PulseEndAndCutFreeTheSlot : Prop :=
  ∀ (i : Site) (s u : State) (c : SiteChannel), c = channelOf s i →
    u = { s with
      channels := s.channels.set i { c with dieArmed := false }
      rail := { s.rail with slotsInUse := s.rail.slotsInUse - 1, pulses := s.rail.pulses.set i none }
      mirror :=
        match s.mirror.countdown with
        | none => s.mirror
        | some n =>
          if 1 < n then { s.mirror with countdown := some (n - 1) }
          else { s.mirror with countdown := none, zeroReached := s.mirror.zeroReached + 1 } } →
    (s.rail.pulses[i] ≠ none →
      (c.activity = .pulsing →
        exec (.pulseEnd i) s =
          .next (scan { u with channels := s.channels.set i { c with dieArmed := false, activity := .naming .verifyPoint } })) ∧
        (c.activity ≠ .pulsing → exec (.pulseEnd i) s = .next (scan u))) ∧
    (s.ram.wf → c.activity = .cutting → ∀ v : State, v = (if s.rail.pulses[i] = none then s else scan u) →
      ∃ t, exec (.pulseCut i) s = .next t ∧ t = { v with ram := t.ram, channels := t.channels } ∧ sitesElse v t i ∧
        disposed v t i (channelOf v i))

/-- TEMPERATURE_READING (R117, R131): the conversion limited to -4096..4095 is the reading; at or above the trip value the
hold is set and TEMP_HOLD is raised when it was clear; more than 2 degrees below the trip value a hold is cleared and a scan
follows; between the two nothing changes. A reading decides the hold but during a soft reset (R134) and in a start-up before the
zeroing of the exchange RAM is complete; the first reading after the zeroing lets the start-up go on (R181). That the reading
itself tells whether the zeroing was still going on is the model's choice (notes/assumptions/31.md). -/
def Obligations.TemperatureReadingDecidesTheHold : Prop :=
  ∀ (output trip : Int) (whileZeroing decides : Bool) (s u : State),
    trip = max (-640) (min 2400 (readRam s 0x84).toInt) →
    (decides = false ↔ s.phase = .softReset ∨ (s.phase = .startupWaiting ∧ whileZeroing = true)) →
    u = { s with
      reading := max (-4096) (min 4095 output)
      phase := if s.phase = .startupWaiting ∧ whileZeroing = false then .startupReady else s.phase } →
    (decides = false → exec (.temperatureReading ⟨output, whileZeroing⟩) s = .next u) ∧
    (decides = true → trip ≤ u.reading → s.rail.hold = false →
      exec (.temperatureReading ⟨output, whileZeroing⟩) s =
        .next { u with attention := s.attention ||| 8, rail := { s.rail with hold := true } }) ∧
    (decides = true → trip ≤ u.reading → s.rail.hold = true →
      exec (.temperatureReading ⟨output, whileZeroing⟩) s = .next u) ∧
    (decides = true → trip - 32 ≤ u.reading → u.reading < trip →
      exec (.temperatureReading ⟨output, whileZeroing⟩) s = .next u) ∧
    (decides = true → u.reading < trip - 32 → s.rail.hold = false →
      exec (.temperatureReading ⟨output, whileZeroing⟩) s = .next u) ∧
    (decides = true → u.reading < trip - 32 → s.rail.hold = true →
      exec (.temperatureReading ⟨output, whileZeroing⟩) s =
        .next (scan { u with rail := { s.rail with hold := false } }))

/-! ## The probe link -/

/-- Sending (R136, R137, R140, R142, R143, R144, R149, R151): EXCHANGE_REQUEST sends the request of the channel's task, with
the retry count 0; a request frame sums to 0 and a test frame never does; RESPONSE_TIMEOUT is a failed sending; and DRAIN_END
resends a READ as a re-point to the recorded address and anything else as itself. A channel whose lot check is still to come
makes it at its EXCHANGE_REQUEST, the model's choice of the moment (notes/assumptions/26.md): with no lot it ends NO_LOT, and
otherwise it takes its lot values and its IDENT is sent (R5, R92, R93). The sum of bytes is modulo 256. -/
def Obligations.ExchangesAreSentAndResent : Prop :=
  (∀ bytes : List Byte, (byteSum bytes).toNat = (bytes.map BitVec.toNat).sum % 256) ∧
  (∀ r : LinkRequest, ∃ body check,
    body = (match r with
      | .ident => [0x11]
      | .point a => [0x22, a.extractLsb' 0 8, a.extractLsb' 8 8]
      | .read n l => [0x33, n, match l with | .normal => 0 | .low => 1 | .high => 2]
      | .arm a => [0x44, a.extractLsb' 0 8, a.extractLsb' 8 8]
      | .disarm => [0x55]) ∧
    requestFrame r false = body ++ [check] ∧ requestFrame r true = body ++ [~~~check] ∧
    byteSum (requestFrame r false) = 0 ∧ byteSum (requestFrame r true) ≠ 0) ∧
  ∀ (i : Site) (s : State) (c : SiteChannel) (p : LinkPort) (task : LinkTask), c = channelOf s i → p = portOf s i →
    (c.activity = .naming task → p.phase = .idle → ∀ (base : Half) (cursor : Nat) (r : LinkRequest),
      base = BitVec.ofNat 16 c.baseWord → cursor = c.remaining.headD 0 →
      (task, r) ∈
        [(LinkTask.ident, LinkRequest.ident), (.onlyPoint, .point base), (.onlyRead, .read 12 .normal),
          (.blankPoint, .point base), (.blankRead, .read 12 .low), (.evalPoint, .point base),
          (.evalRead, .read 12 .normal), (.arm, .arm (BitVec.ofNat 16 (16 * c.baseWord + cursor))),
          (.verifyPoint, .point (BitVec.ofNat 16 (c.baseWord + cursor / 16))), (.verifyRead, .read 1 .high),
          (.lowPoint, .point base), (.lowRead, .read 12 .low), (.highPoint, .point base), (.highRead, .read 12 .high),
          (.disarm, .disarm)] →
      ∃ t, exec (.exchangeRequest i) s = .next t ∧ t = { s with channels := t.channels, ports := t.ports } ∧
        sitesElse s t i ∧ portsElse s t i ∧ channelOf t i = { c with activity := .exchanging task } ∧
        frameSent s { p with exchange := some r, retryCount := 0 } (portOf t i) r false) ∧
    (c.activity = .starting → p.phase = .idle → s.ram.wf →
      ∃ t, exec (.exchangeRequest i) s = .next t ∧
        t = { s with ram := t.ram, channels := t.channels, ports := t.ports } ∧ sitesElse s t i ∧ portsElse s t i ∧
        (s.lot.state = .noLot → portOf t i = p ∧ diedWith s t i c .noLot .none) ∧
        (s.lot.state ≠ .noLot →
          t.ram = s.ram ∧
            channelOf t i =
              { c with
                dieType := s.lot.profile.dieType
                minWords := s.lot.profile.minWords
                baseWord := s.lot.profile.baseWord
                maxAttempts := s.lot.profile.maxAttempts
                activity := .exchanging .ident } ∧
            frameSent s { p with exchange := some .ident, retryCount := 0 } (portOf t i) .ident false)) ∧
    (c.activity = .exchanging task → p.phase = .listening → s.ram.wf →
      ∃ t, exec (.responseTimeout i) s = .next t ∧
        t = { s with ram := t.ram, channels := t.channels, ports := t.ports } ∧ sitesElse s t i ∧ portsElse s t i ∧
        sendingFailed s t i
          { p with counters := { p.counters with timeouts := saturatingInc p.counters.timeouts } } task false) ∧
    (p.phase = .draining → ∀ r, p.exchange = some r →
      ∃ t, exec (.drainEnd i) s = .next t ∧ t = { s with ports := t.ports } ∧ portsElse s t i ∧
        ((∃ n l, r = .read n l) → ∀ a, p.pointedAddress = some a → frameSent s p (portOf t i) (.point a) true) ∧
        ((∀ n l, r ≠ .read n l) ∨ p.pointedAddress = none → frameSent s p (portOf t i) r false))

/-- RESPONSE_COMPLETE at the port (R138, R141, R142, R144, R150). Bytes short of the length of R138 change nothing. A frame that
does not sum to 0 is a failed sending. A good response counts; to a test frame it is a free resend when it refuses the frame,
and link failure otherwise; refusing a good frame it is a failed sending, resent at once; OK to the POINT of a re-point leads
to the READ; anything else ends the exchange, an OK to a POINT being recorded. The port listens for the answer to its exchange,
or to the POINT of a re-point. -/
def Obligations.ResponsesAreJudgedAtThePort : Prop :=
  (∀ p : LinkPort, currentRequest p = if p.onRePoint then p.pointedAddress.map .point else p.exchange) ∧
  (∀ (r : LinkRequest) (status : Byte), expectedLength r status =
    if status = 0 then match r with | .ident => 7 | .read n _ => 2 + 2 * n.toNat | _ => 2 else 2) ∧
  ∀ (i : Site) (s : State) (bytes : List Byte) (c : SiteChannel) (p g : LinkPort) (r : LinkRequest) (task : LinkTask)
    (status : Byte) (len : Nat), s.ram.wf → c = channelOf s i → p = portOf s i → p.phase = .listening →
    currentRequest p = some r → c.activity = .exchanging task → status = bytes.headD 0 →
    len = (if status = 0 then match r with | .ident => 7 | .read n _ => 2 + 2 * n.toNat | _ => 2 else 2) →
    g = { p with counters := { p.counters with goodResponses := saturatingInc p.counters.goodResponses } } →
    ∃ t, exec (.responseComplete i bytes) s = .next t ∧
      t = { s with ram := t.ram, channels := t.channels, ports := t.ports } ∧ sitesElse s t i ∧ portsElse s t i ∧
      (bytes.length < len → t = s) ∧
      (len ≤ bytes.length → byteSum (bytes.take len) ≠ 0 →
        sendingFailed s t i
          { p with counters := { p.counters with checkErrors := saturatingInc p.counters.checkErrors } } task false) ∧
      (len ≤ bytes.length → byteSum (bytes.take len) = 0 →
        (p.testFrame = true → status = 0x0F → t.ram = s.ram ∧ t.channels = s.channels ∧
          frameSent s g (portOf t i) r p.onRePoint) ∧
        (p.testFrame = true → status ≠ 0x0F → linkFailed s t i g task) ∧
        (p.testFrame = false → status = 0x0F →
          sendingFailed s t i
            { g with counters := { g.counters with dieCheckErrors := saturatingInc g.counters.dieCheckErrors } } task
            true) ∧
        (p.testFrame = false → status = 0 → p.onRePoint = true → ∀ x a, p.exchange = some x → r = .point a →
          t.ram = s.ram ∧ t.channels = s.channels ∧
            frameSent s { g with pointedAddress := some a } (portOf t i) x false) ∧
        (p.testFrame = false → status ≠ 0x0F → (status = 0 → p.onRePoint = false) →
          portOf t i =
            { g with
              phase := .idle
              exchange := none
              timer := none
              testFrame := false
              onRePoint := false
              pointedAddress :=
                if status = 0 then (match r with | .point a => some a | _ => p.pointedAddress)
                else p.pointedAddress }))

/-- RESPONSE_COMPLETE at the channel, in PROBE and SCAN (R93 to R97) and for an unexpected status anywhere but at ARM and
DISARM (R94, R113): the IDENT tests in their order, the READ that follows each POINT, the READ_ONLY readback, the blank test
and the evaluation. -/
def Obligations.ScanResponsesAreActedOn : Prop :=
  ∀ (i : Site) (s : State) (bytes : List Byte) (c : SiteChannel) (task : LinkTask) (status : Byte) (data : List Byte),
    s.ram.wf → c = channelOf s i → handedOn s i task bytes status data →
    ∃ t, exec (.responseComplete i bytes) s = .next t ∧
      t = { s with ram := t.ram, channels := t.channels, ports := t.ports } ∧ sitesElse s t i ∧ portsElse s t i ∧
      (task ≠ .arm → task ≠ .disarm → status ≠ 0 →
        (c.bound = none → diedWith s t i c .wrongDie .none) ∧
          (c.bound ≠ none → disposed s t i { c with interruption := some .link })) ∧
      (status = 0 → ∀ after, (task, after) ∈
          [(LinkTask.onlyPoint, LinkTask.onlyRead), (.blankPoint, .blankRead), (.evalPoint, .evalRead),
            (.verifyPoint, .verifyRead), (.lowPoint, .lowRead), (.highPoint, .highRead)] →
        t.ram = s.ram ∧ channelOf t i = { c with activity := .naming after }) ∧
      (task = .ident → status = 0 → ∀ (d0 d1 w0 w1 locked : Byte) (words : Nat), data = [d0, d1, w0, w1, locked] →
        words = w0.toNat + 256 * w1.toNat →
        (d1 ++ d0 ≠ c.dieType ∨ words < c.baseWord + 12 ∨ words < c.minWords → diedWith s t i c .wrongDie .none) ∧
        (d1 ++ d0 = c.dieType → c.baseWord + 12 ≤ words → c.minWords ≤ words → c.action ≠ 2 → locked ≠ 0 →
          diedWith s t i c .dieRefused .none) ∧
        (d1 ++ d0 = c.dieType → c.baseWord + 12 ≤ words → c.minWords ≤ words → c.action = 2 ∨ locked = 0 →
          t.ram = s.ram ∧
            channelOf t i =
              { c with state := .scan, activity := .naming (if c.action = 2 then .onlyPoint else .blankPoint) })) ∧
      (status = 0 → data.length = 24 → ∀ (x : Image) (binding : Option (Nat × Byte)),
        (∀ p, p < 192 → x.getLsbD p = (data.getD (p / 8) 0).getLsbD (p % 8)) →
        binding = (if validBinding x then some (readbackIndex x, readbackTag x) else none) →
        (task = .onlyRead →
          diedWith s t i
            { c with figures := { c.figures with
              blows := blownCount x, readbackBinding := binding, imageLocked := some (isLocked x) } } .readDone .read) ∧
        (task = .blankRead →
          t.ram = s.ram ∧
            channelOf t i =
              { c with activity := if x = 0 then .claimingFresh else .naming .evalPoint }) ∧
        (task = .evalRead → validBinding x = true → readbackTag x = s.lot.number.extractLsb' 0 8 →
          t.ram = s.ram ∧ channelOf t i = { c with readback := x, activity := .claimingResume }) ∧
        (task = .evalRead → validBinding x = false ∨ readbackTag x ≠ s.lot.number.extractLsb' 0 8 →
          diedWith s t i { c with readback := x, figures := { c.figures with readbackBinding := binding } }
            (if validBinding x = true ∧ isLocked x = true then .lockedDie else .notBlank) .none))

/-- RESPONSE_COMPLETE at the channel, in the burn and in CHECK (R100, R101, R103, R104, R106, R114): the status of an ARM, the
three results of a verify read, the two readbacks of the final check, and any answer to a DISARM. -/
def Obligations.BurnResponsesAreActedOn : Prop :=
  ∀ (i : Site) (s : State) (bytes : List Byte) (c : SiteChannel) (task : LinkTask) (status : Byte) (data : List Byte),
    s.ram.wf → c = channelOf s i → handedOn s i task bytes status data →
    ∃ t, exec (.responseComplete i bytes) s = .next t ∧
      t = { s with ram := t.ram, channels := t.channels, ports := t.ports } ∧ sitesElse s t i ∧ portsElse s t i ∧
      (task = .arm → status = 1 →
        t.ram = s.ram ∧ channelOf t i = { c with dieArmed := true, activity := .askingSlot }) ∧
      (task = .arm → status = 2 ∨ status = 3 →
        reported s t i { c with figures := { c.figures with failingPosition := none } } .dieRefused (.spoil .dieRefused)) ∧
      (task = .arm → status ≠ 1 → status ≠ 2 → status ≠ 3 → disposed s t i { c with interruption := some .link }) ∧
      (task = .disarm → owedSent s t i c) ∧
      (task = .verifyRead → status = 0 → ∀ (lo hi : Byte) (x : Image) (p : Nat) (rest : List Nat) (v : VerifyResult),
        data = [lo, hi] → c.target = some x → c.remaining = p :: rest → v = verifyTest x p rest (hi ++ lo) →
        (∀ q, v = .unexpectedBlow q →
          reported s t i { c with figures := { c.figures with failingPosition := some q } } .overblown
            (.spoil .overblown)) ∧
        (v = .notBlown → c.attempt < c.maxAttempts →
          t.ram = s.ram ∧ channelOf t i = { c with attempt := c.attempt + 1, activity := .naming .arm }) ∧
        (v = .notBlown → c.maxAttempts ≤ c.attempt →
          reported s t i { c with figures := { c.figures with failingPosition := some p } } .burnFail
            (.spoil .burnFail)) ∧
        (v = .verified →
          t.ram = s.ram ∧
            channelOf t i =
              { c with
                remaining := rest
                figures := { c.figures with blows := c.figures.blows + 1 }
                attempt := 1
                state := (rest.head?.map phaseOf).getD .check
                activity := .naming (if rest = [] then .lowPoint else .arm) })) ∧
      (status = 0 → data.length = 24 → ∀ x y : Image, c.target = some x →
        (∀ p, p < 192 → y.getLsbD p = (data.getD (p / 8) 0).getLsbD (p % 8)) →
        (∀ p, task = .lowRead ∧ overblownAt x y = some p ∨ task = .highRead ∧ underblownAt x y = some p →
          reported s t i { c with figures := { c.figures with failingPosition := some p } } .verifyFail
            (.spoil .verifyFail)) ∧
        (task = .lowRead → overblownAt x y = none →
          t.ram = s.ram ∧ channelOf t i = { c with activity := .naming .highPoint }) ∧
        (task = .highRead → underblownAt x y = none →
          reported s t i c (if c.bound.map (·.kind) = some .resumed then .resumed else .provisioned) .commit))
end

