-- ==== Sys2Proof/Laws/Fields.lean ====
section
/-!
SUPPORT. The fields of the words that hold several: the answer word, and the first and the key tag word of a result record.
-/

namespace Sys2Proof.Machine

/-- A word below 256 has no bit beyond bit 7. -/
theorem getLsbD_of_byte {w : Word} (h : w.toNat < 256) {k : Nat} (hk : 8 ≤ k) : w.getLsbD k = false :=
  Nat.testBit_lt_two_pow (Nat.lt_of_lt_of_le h (Nat.pow_le_pow_right (by decide) hk : 2 ^ 8 ≤ 2 ^ k))

/-! Every code fits its eight bits. -/

theorem AnswerCode.code_lt (c : AnswerCode) : c.code.toNat < 256 := by cases c <;> decide

theorem Disposition.code_lt (d : Disposition) : d.code.toNat < 256 := by cases d <;> decide

theorem Outcome.code_lt (o : Option Outcome) : ((o.map Outcome.code).getD 0 : Word).toNat < 256 := by
  cases o with
  | none => decide
  | some o => cases o <;> decide

theorem SpoilCause.code_lt (c : Option SpoilCause) : ((c.map SpoilCause.code).getD 0 : Word).toNat < 256 := by
  cases c with
  | none => decide
  | some c => cases c <;> decide

/-- The fields of an answer word. -/
theorem answerWord_fields (q : Half) (code : AnswerCode) :
    (answerWord q code).extractLsb' 0 16 = q ∧ (answerWord q code).extractLsb' 16 8 = code.code.extractLsb' 0 8 ∧
      (answerWord q code).extractLsb' 24 8 = 0 := by
  have bit (k : Nat) : (answerWord q code).getLsbD k =
      (decide (k < 32) && q.getLsbD k || decide (k < 32) && !decide (k < 16) && code.code.getLsbD (k - 16)) := by
    simp [answerWord]
  refine ⟨?_, ?_, ?_⟩
  all_goals
    refine BitVec.eq_of_getLsbD_eq fun k hk => ?_
    rw [BitVec.getLsbD_extractLsb', bit]
  · have h1 : k < 32 := by omega
    simp [hk, h1]
  · have h1 : 16 + k < 32 := by omega
    have h2 : ¬ 16 + k < 16 := by omega
    simp [hk, h1, h2, BitVec.getLsbD_of_ge]
  · have h1 : 24 + k < 32 := by omega
    have h2 : ¬ 24 + k < 16 := by omega
    have h3 := getLsbD_of_byte code.code_lt (k := 24 + k - 16) (by omega)
    simp [hk, h1, h2, h3, BitVec.getLsbD_of_ge _ (24 + k) (by omega : 16 ≤ 24 + k)]

/-- The fields of the word 0x00 of a result record. -/
theorem recordHead_fields (c : SiteChannel) (d : Disposition) (cause : Option SpoilCause) :
    (recordHead c d cause).extractLsb' 0 8 = ((c.outcome.map Outcome.code).getD 0).extractLsb' 0 8 ∧
      (recordHead c d cause).extractLsb' 8 8 = d.code.extractLsb' 0 8 ∧
      (recordHead c d cause).extractLsb' 16 8 = ((cause.map SpoilCause.code).getD 0).extractLsb' 0 8 ∧
      (recordHead c d cause).extractLsb' 24 8 = 0 := by
  have bit (k : Nat) : (recordHead c d cause).getLsbD k =
      (((c.outcome.map Outcome.code).getD 0).getLsbD k || decide (k < 32) && !decide (k < 8) && d.code.getLsbD (k - 8) ||
        decide (k < 32) && !decide (k < 16) && ((cause.map SpoilCause.code).getD 0).getLsbD (k - 16)) := by
    simp [recordHead]
  have ho {k : Nat} (hk : 8 ≤ k) := getLsbD_of_byte (Outcome.code_lt c.outcome) hk
  have hd {k : Nat} (hk : 8 ≤ k) := getLsbD_of_byte d.code_lt hk
  have hc {k : Nat} (hk : 8 ≤ k) := getLsbD_of_byte (SpoilCause.code_lt cause) hk
  refine ⟨?_, ?_, ?_, ?_⟩
  all_goals
    refine BitVec.eq_of_getLsbD_eq fun k hk => ?_
    rw [BitVec.getLsbD_extractLsb', bit]
  · have h1 : k < 32 := by omega
    have h2 : k < 16 := by omega
    simp [hk, h1, h2]
  · have h1 : 8 + k < 32 := by omega
    have h2 : 8 + k < 16 := by omega
    rw [ho (k := 8 + k) (by omega)]
    simp [hk, h1, h2]
  · have h1 : 16 + k < 32 := by omega
    rw [ho (k := 16 + k) (by omega), hd (k := 16 + k - 8) (by omega)]
    simp [hk, h1]
  · have h1 : 24 + k < 32 := by omega
    rw [ho (k := 24 + k) (by omega), hd (k := 24 + k - 8) (by omega), hc (k := 24 + k - 16) (by omega)]
    simp

/-- The fields of the key tag word of a result record. -/
theorem keyTagWord_fields (check polarity : Byte) :
    (check.setWidth 32 ||| (polarity.setWidth 32 <<< 8) : Word).extractLsb' 0 8 = check ∧
      (check.setWidth 32 ||| (polarity.setWidth 32 <<< 8) : Word).extractLsb' 8 8 = polarity ∧
      (check.setWidth 32 ||| (polarity.setWidth 32 <<< 8) : Word).extractLsb' 16 16 = 0 := by
  have bit (k : Nat) : (check.setWidth 32 ||| (polarity.setWidth 32 <<< 8) : Word).getLsbD k =
      (decide (k < 32) && check.getLsbD k ||
        decide (k < 32) && !decide (k < 8) && (decide (k - 8 < 32) && polarity.getLsbD (k - 8))) := by
    simp
  refine ⟨?_, ?_, ?_⟩
  all_goals
    refine BitVec.eq_of_getLsbD_eq fun k hk => ?_
    rw [BitVec.getLsbD_extractLsb', bit]
  · have h1 : k < 32 := by omega
    simp [hk, h1]
  · have h1 : 8 + k < 32 := by omega
    have h2 : k < 32 := by omega
    simp [hk, h1, h2, BitVec.getLsbD_of_ge]
  · simp [BitVec.getLsbD_of_ge _ (16 + k) (by omega : 8 ≤ 16 + k),
      BitVec.getLsbD_of_ge _ (16 + k - 8) (by omega : 8 ≤ 16 + k - 8)]

end Sys2Proof.Machine
end

