-- ==== Sys2Proof/Laws/Memory.lean ====
section
/-!
SUPPORT. The laws of the exchange RAM: a read after a write, what a write leaves alone, and that every operation keeps the
canonical form.
-/

namespace Sys2Proof.Machine

/-! ## Bytes -/

@[simp] theorem readByte_nil (a : Nat) : readByte [] a = 0 := rfl

/-- An address below every listed one reads 0. -/
theorem readByte_of_lt {m : Memory} {a : Nat} (h : ∀ c ∈ m, a < c.1) : readByte m a = 0 := by
  induction m with
  | nil => rfl
  | cons c m ih =>
    obtain ⟨k, v⟩ := c
    have hk : a < k := h (k, v) (by simp)
    have : ¬ k = a := by omega
    simp only [readByte, if_neg this]
    exact ih fun c hc => h c (by simp [hc])

/-- In canonical form, a read of the address just inserted gives the byte, and any other address reads as before. -/
theorem readByte_insertByte {m : Memory} (hm : m.Pairwise (fun x y => x.1 < y.1)) (a a' : Nat) (b : Byte) :
    readByte (insertByte m a b) a' = if a' = a then b else readByte m a' := by
  induction m with
  | nil =>
    by_cases hb : b = 0
    · subst hb; simp [insertByte]
    · simp only [insertByte, if_neg hb, readByte]
      by_cases h : a' = a
      · simp [h]
      · have : ¬ a = a' := fun e => h e.symm
        simp [h, this]
  | cons c m ih =>
    obtain ⟨k, v⟩ := c
    have hrest := (List.pairwise_cons.mp hm).2
    have hhead := (List.pairwise_cons.mp hm).1
    have ih := ih hrest
    simp only [insertByte]
    by_cases h1 : a < k
    · have hz : readByte ((k, v) :: m) a = 0 := by
        apply readByte_of_lt
        intro c hc
        rcases List.mem_cons.mp hc with rfl | hc
        · exact h1
        · exact lt_trans h1 (hhead c hc)
      by_cases hb : b = 0
      · simp only [if_pos h1, if_pos hb]
        by_cases h : a' = a
        · subst h; simp [hz, hb]
        · simp [h]
      · simp only [if_pos h1, if_neg hb]
        by_cases h : a' = a
        · simp [readByte, h]
        · have : ¬ a = a' := fun e => h e.symm
          rw [readByte, if_neg this]
          simp [h]
    · by_cases h2 : a = k
      · subst h2
        have hz : readByte m a = 0 := readByte_of_lt fun c hc => hhead c hc
        by_cases hb : b = 0
        · simp only [if_neg h1, if_true, if_pos hb]
          by_cases h : a' = a
          · subst h; simp [hz, hb]
          · have : ¬ a = a' := fun e => h e.symm
            simp [h, readByte, this]
        · simp only [if_neg h1, if_true, if_neg hb]
          by_cases h : a' = a
          · simp [readByte, h]
          · have : ¬ a = a' := fun e => h e.symm
            simp [h, readByte, this]
      · simp only [if_neg h1, if_neg h2, readByte]
        by_cases h : k = a'
        · subst h
          have : ¬ k = a := fun e => h2 e.symm
          simp [this]
        · simp only [if_neg h]
          exact ih

/-- Membership after an insertion: an old entry, or the new byte, which is not 0. -/
theorem mem_insertByte {m : Memory} {a : Nat} {b : Byte} {c : Host.Cell} (h : c ∈ insertByte m a b) :
    c ∈ m ∨ (c = (a, b) ∧ b ≠ 0) := by
  induction m with
  | nil =>
    by_cases hb : b = 0
    · simp [insertByte, hb] at h
    · simp only [insertByte, if_neg hb, List.mem_singleton] at h
      exact .inr ⟨h, hb⟩
  | cons d m ih =>
    obtain ⟨k, v⟩ := d
    simp only [insertByte] at h
    split at h
    · split at h
      · exact .inl h
      · rcases List.mem_cons.mp h with h | h
        · exact .inr ⟨h, by assumption⟩
        · exact .inl h
    · split at h
      · split at h
        · exact .inl (List.mem_cons_of_mem _ h)
        · rcases List.mem_cons.mp h with h | h
          · exact .inr ⟨h, by assumption⟩
          · exact .inl (List.mem_cons_of_mem _ h)
      · rcases List.mem_cons.mp h with h | h
        · exact .inl (by simp [h])
        · rcases ih h with h | h
          · exact .inl (List.mem_cons_of_mem _ h)
          · exact .inr h

/-- An insertion keeps addresses strictly rising. -/
theorem insertByte_pairwise {m : Memory} (hm : m.Pairwise (fun x y => x.1 < y.1)) (a : Nat) (b : Byte) :
    (insertByte m a b).Pairwise (fun x y => x.1 < y.1) := by
  induction m with
  | nil => simp only [insertByte]; split <;> simp
  | cons c m ih =>
    obtain ⟨k, v⟩ := c
    obtain ⟨hhead, hrest⟩ := List.pairwise_cons.mp hm
    simp only [insertByte]
    split
    · rename_i h1
      split
      · exact hm
      · refine List.pairwise_cons.mpr ⟨fun c hc => ?_, hm⟩
        rcases List.mem_cons.mp hc with rfl | hc
        · exact h1
        · exact lt_trans h1 (hhead c hc)
    · rename_i h1
      split
      · rename_i h2
        split
        · exact hrest
        · exact List.pairwise_cons.mpr ⟨fun c hc => h2 ▸ hhead c hc, hrest⟩
      · rename_i h2
        refine List.pairwise_cons.mpr ⟨fun c hc => ?_, ih hrest⟩
        rcases mem_insertByte hc with hc | ⟨rfl, -⟩
        · exact hhead c hc
        · show k < a
          omega

/-- A byte write keeps the canonical form. -/
theorem writeByte_wf {m : Memory} (hm : m.wf) (a : Nat) (b : Byte) : (writeByte m a b).wf := by
  unfold writeByte
  split
  · rename_i ha
    refine ⟨insertByte_pairwise hm.1 a b, fun c hc => ?_⟩
    rcases mem_insertByte hc with hc | ⟨rfl, hb⟩
    · exact hm.2 c hc
    · exact ⟨hb, ha⟩
  · exact hm

/-- Zeroing a region keeps the canonical form. -/
theorem zeroRange_wf {m : Memory} (hm : m.wf) (base len : Nat) : (zeroRange m base len).wf :=
  ⟨hm.1.filter _, fun c hc => hm.2 c (List.mem_filter.mp hc).1⟩

/-- A read after a byte write. -/
theorem readByte_writeByte {m : Memory} (hm : m.wf) {a : Nat} (ha : a < Config.ramBytes) (a' : Nat) (b : Byte) :
    readByte (writeByte m a b) a' = if a' = a then b else readByte m a' := by
  rw [writeByte, if_pos ha]
  exact readByte_insertByte hm.1 a a' b

/-- A byte write leaves every other address alone. -/
theorem readByte_writeByte_of_ne {m : Memory} (hm : m.wf) {a a' : Nat} (h : a' ≠ a) (b : Byte) :
    readByte (writeByte m a b) a' = readByte m a' := by
  by_cases ha : a < Config.ramBytes
  · rw [readByte_writeByte hm ha, if_neg h]
  · rw [writeByte, if_neg ha]

/-- A read after zeroing a region. -/
theorem readByte_zeroRange (m : Memory) (base len a : Nat) :
    readByte (zeroRange m base len) a = if base ≤ a ∧ a < base + len then 0 else readByte m a := by
  induction m with
  | nil => simp [zeroRange]
  | cons c m ih =>
    obtain ⟨k, v⟩ := c
    have ih' : readByte (List.filter (fun c => !(decide (base ≤ c.1) && decide (c.1 < base + len))) m) a =
        if base ≤ a ∧ a < base + len then 0 else readByte m a := ih
    simp only [zeroRange, List.filter_cons]
    by_cases hk : base ≤ k ∧ k < base + len
    · have : (!(decide (base ≤ k) && decide (k < base + len))) = false := by simp [hk.1, hk.2]
      rw [if_neg (by simp [hk.1, hk.2]), ih']
      by_cases h : base ≤ a ∧ a < base + len
      · simp [h]
      · have : ¬ k = a := fun e => h (e ▸ hk)
        simp [h, readByte, this]
    · rw [if_pos (by simp; omega)]
      by_cases hka : k = a
      · subst hka
        simp [readByte, hk]
      · simp only [readByte, if_neg hka]
        exact ih'

/-! ## Words -/

/-- A word write keeps the canonical form. -/
theorem writeWord_wf {m : Memory} (hm : m.wf) (a : Nat) (w : Word) : (writeWord m a w).wf :=
  writeByte_wf (writeByte_wf (writeByte_wf (writeByte_wf hm _ _) _ _) _ _) _ _

/-- Writing words keeps the canonical form. -/
theorem writeWords_wf {m : Memory} (hm : m.wf) (a : Nat) (ws : List Word) : (writeWords m a ws).wf := by
  induction ws generalizing m a with
  | nil => exact hm
  | cons w ws ih => exact ih (writeWord_wf hm a w) (a + 4)

/-- A word write leaves every byte outside the word alone. -/
theorem readByte_writeWord_of_out {m : Memory} (hm : m.wf) {a a' : Nat} (h : a' < a ∨ a + 4 ≤ a') (w : Word) :
    readByte (writeWord m a w) a' = readByte m a' := by
  have h1 := writeByte_wf hm a (byteOf w 0)
  have h2 := writeByte_wf h1 (a + 1) (byteOf w 1)
  have h3 := writeByte_wf h2 (a + 2) (byteOf w 2)
  rw [writeWord, readByte_writeByte_of_ne h3 (by omega), readByte_writeByte_of_ne h2 (by omega),
    readByte_writeByte_of_ne h1 (by omega), readByte_writeByte_of_ne hm (by omega)]

/-- The bytes of a word just written. -/
theorem readByte_writeWord_in {m : Memory} (hm : m.wf) {a k : Nat} (hk : k < 4) (ha : a + 4 ≤ Config.ramBytes) (w : Word) :
    readByte (writeWord m a w) (a + k) = byteOf w k := by
  have h1 := writeByte_wf hm a (byteOf w 0)
  have h2 := writeByte_wf h1 (a + 1) (byteOf w 1)
  have h3 := writeByte_wf h2 (a + 2) (byteOf w 2)
  rw [writeWord, readByte_writeByte h3 (by omega), readByte_writeByte h2 (by omega),
    readByte_writeByte h1 (by omega), readByte_writeByte hm (by omega)]
  interval_cases k <;> simp

/-- A word is its four bytes. -/
theorem byteOf_append (w : Word) : byteOf w 3 ++ (byteOf w 2 ++ (byteOf w 1 ++ byteOf w 0)) = w := by
  apply BitVec.eq_of_getLsbD_eq
  intro i hi
  simp only [byteOf, BitVec.getLsbD_append, BitVec.getLsbD_extractLsb']
  interval_cases i <;> simp

/-- The bytes of a word that is put together from four. -/
theorem byteOf_bytes (b3 b2 b1 b0 : Byte) {k : Nat} (hk : k < 4) :
    byteOf (b3 ++ (b2 ++ (b1 ++ b0))) k = [b0, b1, b2, b3].getD k 0 := by
  refine BitVec.eq_of_getLsbD_eq fun j hj => ?_
  have app {n m : Nat} (x : BitVec n) (y : BitVec m) (i : Nat) :
      (x ++ y).getLsbD i = if i < m then y.getLsbD i else x.getLsbD (i - m) := BitVec.getLsbD_append
  rw [byteOf, BitVec.getLsbD_extractLsb']
  show (decide (j < 8) && BitVec.getLsbD (w := 8 + (8 + (8 + 8))) (b3 ++ (b2 ++ (b1 ++ b0))) (8 * k + j)) = _
  rw [app, app, app]
  obtain rfl | rfl | rfl | rfl : k = 0 ∨ k = 1 ∨ k = 2 ∨ k = 3 := by omega
  · simp [hj, show j < 24 by omega, show j < 16 by omega]
  · simp [hj, show 8 + j < 24 by omega, show 8 + j < 16 by omega]
  · simp [hj, show 16 + j < 24 by omega]
  · simp [hj, show ¬ 24 + j < 24 by omega]

/-- A read of a word just written. -/
theorem readWord_writeWord {m : Memory} (hm : m.wf) {a : Nat} (ha : a + 4 ≤ Config.ramBytes) (w : Word) :
    readWord (writeWord m a w) a = w := by
  have h0 := readByte_writeWord_in hm (k := 0) (by omega) ha w
  rw [readWord, readByte_writeWord_in hm (by omega) ha, readByte_writeWord_in hm (by omega) ha,
    readByte_writeWord_in hm (by omega) ha]
  rw [Nat.add_zero] at h0
  rw [h0]
  exact byteOf_append w

/-- A word that shares no byte with the one written reads as before. -/
theorem readWord_writeWord_of_out {m : Memory} (hm : m.wf) {a a' : Nat} (h : a' + 4 ≤ a ∨ a + 4 ≤ a') (w : Word) :
    readWord (writeWord m a w) a' = readWord m a' := by
  unfold readWord
  rw [readByte_writeWord_of_out hm (by omega), readByte_writeWord_of_out hm (by omega),
    readByte_writeWord_of_out hm (by omega), readByte_writeWord_of_out hm (by omega)]

/-- Writing words leaves every byte outside them alone. -/
theorem readByte_writeWords_of_out {m : Memory} (hm : m.wf) {a a' : Nat} {ws : List Word}
    (h : a' < a ∨ a + 4 * ws.length ≤ a') : readByte (writeWords m a ws) a' = readByte m a' := by
  induction ws generalizing m a with
  | nil => rfl
  | cons w ws ih =>
    rw [List.length_cons] at h
    rw [writeWords, ih (writeWord_wf hm a w) (by omega), readByte_writeWord_of_out hm (by omega)]

/-- A word outside the words written reads as before. -/
theorem readWord_writeWords_of_out {m : Memory} (hm : m.wf) {a a' : Nat} {ws : List Word}
    (h : a' + 4 ≤ a ∨ a + 4 * ws.length ≤ a') : readWord (writeWords m a ws) a' = readWord m a' := by
  unfold readWord
  rw [readByte_writeWords_of_out hm (by omega), readByte_writeWords_of_out hm (by omega),
    readByte_writeWords_of_out hm (by omega), readByte_writeWords_of_out hm (by omega)]

/-- The k-th of the words just written. -/
theorem readWord_writeWords_in {m : Memory} (hm : m.wf) {a k : Nat} {ws : List Word} (hk : k < ws.length)
    (ha : a + 4 * ws.length ≤ Config.ramBytes) : readWord (writeWords m a ws) (a + 4 * k) = ws[k] := by
  induction ws generalizing m a k with
  | nil => simp at hk
  | cons w ws ih =>
    rw [List.length_cons] at hk ha
    rw [writeWords]
    cases k with
    | zero =>
      rw [readWord_writeWords_of_out (writeWord_wf hm a w) (by omega)]
      simpa using readWord_writeWord hm (by omega) w
    | succ k =>
      have h := ih (m := writeWord m a w) (writeWord_wf hm a w) (a := a + 4) (k := k) (by omega) (by omega)
      have e : a + 4 * (k + 1) = a + 4 + 4 * k := by ring
      rw [e]
      simpa using h

/-- A word wholly inside a region just zeroed reads 0. -/
theorem readWord_zeroRange_in {m : Memory} {base len a : Nat} (h1 : base ≤ a) (h2 : a + 4 ≤ base + len) :
    readWord (zeroRange m base len) a = 0 := by
  unfold readWord
  rw [readByte_zeroRange, readByte_zeroRange, readByte_zeroRange, readByte_zeroRange, if_pos (by omega), if_pos (by omega),
    if_pos (by omega), if_pos (by omega)]
  rfl

/-- A word outside a region just zeroed reads as before. -/
theorem readWord_zeroRange_of_out {m : Memory} {base len a : Nat} (h : a + 4 ≤ base ∨ base + len ≤ a) :
    readWord (zeroRange m base len) a = readWord m a := by
  unfold readWord
  rw [readByte_zeroRange, readByte_zeroRange, readByte_zeroRange, readByte_zeroRange, if_neg (by omega), if_neg (by omega),
    if_neg (by omega), if_neg (by omega)]

/-- The memory after reset has the canonical form. -/
theorem reset_ram_wf : State.reset.ram.wf := by
  show Memory.wf []
  exact ⟨List.Pairwise.nil, by simp⟩

end Sys2Proof.Machine
end

