-- ==== Sys2Proof/Laws/State.lean ====
section
/-!
SUPPORT. One lemma per field per update: what each named update leaves as it was, and what it puts in place.
-/

namespace Sys2Proof.Machine

/-! ## writeRam -/

@[simp] theorem writeRam_ram (s : State) (a : Nat) (w : Word) : (writeRam s a w).ram = writeWord s.ram a w := rfl
@[simp] theorem writeRam_phase (s : State) (a : Nat) (w : Word) : (writeRam s a w).phase = s.phase := rfl
@[simp] theorem writeRam_straps (s : State) (a : Nat) (w : Word) : (writeRam s a w).straps = s.straps := rfl
@[simp] theorem writeRam_enables (s : State) (a : Nat) (w : Word) : (writeRam s a w).enables = s.enables := rfl
@[simp] theorem writeRam_attention (s : State) (a : Nat) (w : Word) : (writeRam s a w).attention = s.attention := rfl
@[simp] theorem writeRam_requests (s : State) (a : Nat) (w : Word) : (writeRam s a w).requests = s.requests := rfl
@[simp] theorem writeRam_lot (s : State) (a : Nat) (w : Word) : (writeRam s a w).lot = s.lot := rfl
@[simp] theorem writeRam_derivation (s : State) (a : Nat) (w : Word) : (writeRam s a w).derivation = s.derivation := rfl
@[simp] theorem writeRam_touchdown (s : State) (a : Nat) (w : Word) : (writeRam s a w).touchdown = s.touchdown := rfl
@[simp] theorem writeRam_channels (s : State) (a : Nat) (w : Word) : (writeRam s a w).channels = s.channels := rfl
@[simp] theorem writeRam_ports (s : State) (a : Nat) (w : Word) : (writeRam s a w).ports = s.ports := rfl
@[simp] theorem writeRam_rail (s : State) (a : Nat) (w : Word) : (writeRam s a w).rail = s.rail := rfl
@[simp] theorem writeRam_reading (s : State) (a : Nat) (w : Word) : (writeRam s a w).reading = s.reading := rfl
@[simp] theorem writeRam_mirror (s : State) (a : Nat) (w : Word) : (writeRam s a w).mirror = s.mirror := rfl
@[simp] theorem writeRam_contactLine (s : State) (a : Nat) (w : Word) : (writeRam s a w).contactLine = s.contactLine := rfl
@[simp] theorem writeRam_pending (s : State) (a : Nat) (w : Word) : (writeRam s a w).pending = s.pending := rfl

/-! ## writeRamWords -/

@[simp] theorem writeRamWords_ram (s : State) (a : Nat) (ws : List Word) : (writeRamWords s a ws).ram = writeWords s.ram a ws := rfl
@[simp] theorem writeRamWords_phase (s : State) (a : Nat) (ws : List Word) : (writeRamWords s a ws).phase = s.phase := rfl
@[simp] theorem writeRamWords_straps (s : State) (a : Nat) (ws : List Word) : (writeRamWords s a ws).straps = s.straps := rfl
@[simp] theorem writeRamWords_enables (s : State) (a : Nat) (ws : List Word) : (writeRamWords s a ws).enables = s.enables := rfl
@[simp] theorem writeRamWords_attention (s : State) (a : Nat) (ws : List Word) : (writeRamWords s a ws).attention = s.attention := rfl
@[simp] theorem writeRamWords_requests (s : State) (a : Nat) (ws : List Word) : (writeRamWords s a ws).requests = s.requests := rfl
@[simp] theorem writeRamWords_lot (s : State) (a : Nat) (ws : List Word) : (writeRamWords s a ws).lot = s.lot := rfl
@[simp] theorem writeRamWords_derivation (s : State) (a : Nat) (ws : List Word) : (writeRamWords s a ws).derivation = s.derivation := rfl
@[simp] theorem writeRamWords_touchdown (s : State) (a : Nat) (ws : List Word) : (writeRamWords s a ws).touchdown = s.touchdown := rfl
@[simp] theorem writeRamWords_channels (s : State) (a : Nat) (ws : List Word) : (writeRamWords s a ws).channels = s.channels := rfl
@[simp] theorem writeRamWords_ports (s : State) (a : Nat) (ws : List Word) : (writeRamWords s a ws).ports = s.ports := rfl
@[simp] theorem writeRamWords_rail (s : State) (a : Nat) (ws : List Word) : (writeRamWords s a ws).rail = s.rail := rfl
@[simp] theorem writeRamWords_reading (s : State) (a : Nat) (ws : List Word) : (writeRamWords s a ws).reading = s.reading := rfl
@[simp] theorem writeRamWords_mirror (s : State) (a : Nat) (ws : List Word) : (writeRamWords s a ws).mirror = s.mirror := rfl
@[simp] theorem writeRamWords_contactLine (s : State) (a : Nat) (ws : List Word) : (writeRamWords s a ws).contactLine = s.contactLine := rfl
@[simp] theorem writeRamWords_pending (s : State) (a : Nat) (ws : List Word) : (writeRamWords s a ws).pending = s.pending := rfl

/-! ## zeroRam -/

@[simp] theorem zeroRam_ram (s : State) (base len : Nat) : (zeroRam s base len).ram = zeroRange s.ram base len := rfl
@[simp] theorem zeroRam_phase (s : State) (base len : Nat) : (zeroRam s base len).phase = s.phase := rfl
@[simp] theorem zeroRam_straps (s : State) (base len : Nat) : (zeroRam s base len).straps = s.straps := rfl
@[simp] theorem zeroRam_enables (s : State) (base len : Nat) : (zeroRam s base len).enables = s.enables := rfl
@[simp] theorem zeroRam_attention (s : State) (base len : Nat) : (zeroRam s base len).attention = s.attention := rfl
@[simp] theorem zeroRam_requests (s : State) (base len : Nat) : (zeroRam s base len).requests = s.requests := rfl
@[simp] theorem zeroRam_lot (s : State) (base len : Nat) : (zeroRam s base len).lot = s.lot := rfl
@[simp] theorem zeroRam_derivation (s : State) (base len : Nat) : (zeroRam s base len).derivation = s.derivation := rfl
@[simp] theorem zeroRam_touchdown (s : State) (base len : Nat) : (zeroRam s base len).touchdown = s.touchdown := rfl
@[simp] theorem zeroRam_channels (s : State) (base len : Nat) : (zeroRam s base len).channels = s.channels := rfl
@[simp] theorem zeroRam_ports (s : State) (base len : Nat) : (zeroRam s base len).ports = s.ports := rfl
@[simp] theorem zeroRam_rail (s : State) (base len : Nat) : (zeroRam s base len).rail = s.rail := rfl
@[simp] theorem zeroRam_reading (s : State) (base len : Nat) : (zeroRam s base len).reading = s.reading := rfl
@[simp] theorem zeroRam_mirror (s : State) (base len : Nat) : (zeroRam s base len).mirror = s.mirror := rfl
@[simp] theorem zeroRam_contactLine (s : State) (base len : Nat) : (zeroRam s base len).contactLine = s.contactLine := rfl
@[simp] theorem zeroRam_pending (s : State) (base len : Nat) : (zeroRam s base len).pending = s.pending := rfl

/-! ## setChannel -/

@[simp] theorem setChannel_ram (s : State) (i : Site) (c : SiteChannel) : (setChannel s i c).ram = s.ram := rfl
@[simp] theorem setChannel_phase (s : State) (i : Site) (c : SiteChannel) : (setChannel s i c).phase = s.phase := rfl
@[simp] theorem setChannel_straps (s : State) (i : Site) (c : SiteChannel) : (setChannel s i c).straps = s.straps := rfl
@[simp] theorem setChannel_enables (s : State) (i : Site) (c : SiteChannel) : (setChannel s i c).enables = s.enables := rfl
@[simp] theorem setChannel_attention (s : State) (i : Site) (c : SiteChannel) : (setChannel s i c).attention = s.attention := rfl
@[simp] theorem setChannel_requests (s : State) (i : Site) (c : SiteChannel) : (setChannel s i c).requests = s.requests := rfl
@[simp] theorem setChannel_lot (s : State) (i : Site) (c : SiteChannel) : (setChannel s i c).lot = s.lot := rfl
@[simp] theorem setChannel_derivation (s : State) (i : Site) (c : SiteChannel) : (setChannel s i c).derivation = s.derivation := rfl
@[simp] theorem setChannel_touchdown (s : State) (i : Site) (c : SiteChannel) : (setChannel s i c).touchdown = s.touchdown := rfl
@[simp] theorem setChannel_channels (s : State) (i : Site) (c : SiteChannel) : (setChannel s i c).channels = s.channels.set i c := rfl
@[simp] theorem setChannel_ports (s : State) (i : Site) (c : SiteChannel) : (setChannel s i c).ports = s.ports := rfl
@[simp] theorem setChannel_rail (s : State) (i : Site) (c : SiteChannel) : (setChannel s i c).rail = s.rail := rfl
@[simp] theorem setChannel_reading (s : State) (i : Site) (c : SiteChannel) : (setChannel s i c).reading = s.reading := rfl
@[simp] theorem setChannel_mirror (s : State) (i : Site) (c : SiteChannel) : (setChannel s i c).mirror = s.mirror := rfl
@[simp] theorem setChannel_contactLine (s : State) (i : Site) (c : SiteChannel) : (setChannel s i c).contactLine = s.contactLine := rfl
@[simp] theorem setChannel_pending (s : State) (i : Site) (c : SiteChannel) : (setChannel s i c).pending = s.pending := rfl

/-! ## setPort -/

@[simp] theorem setPort_ram (s : State) (i : Site) (p : LinkPort) : (setPort s i p).ram = s.ram := rfl
@[simp] theorem setPort_phase (s : State) (i : Site) (p : LinkPort) : (setPort s i p).phase = s.phase := rfl
@[simp] theorem setPort_straps (s : State) (i : Site) (p : LinkPort) : (setPort s i p).straps = s.straps := rfl
@[simp] theorem setPort_enables (s : State) (i : Site) (p : LinkPort) : (setPort s i p).enables = s.enables := rfl
@[simp] theorem setPort_attention (s : State) (i : Site) (p : LinkPort) : (setPort s i p).attention = s.attention := rfl
@[simp] theorem setPort_requests (s : State) (i : Site) (p : LinkPort) : (setPort s i p).requests = s.requests := rfl
@[simp] theorem setPort_lot (s : State) (i : Site) (p : LinkPort) : (setPort s i p).lot = s.lot := rfl
@[simp] theorem setPort_derivation (s : State) (i : Site) (p : LinkPort) : (setPort s i p).derivation = s.derivation := rfl
@[simp] theorem setPort_touchdown (s : State) (i : Site) (p : LinkPort) : (setPort s i p).touchdown = s.touchdown := rfl
@[simp] theorem setPort_channels (s : State) (i : Site) (p : LinkPort) : (setPort s i p).channels = s.channels := rfl
@[simp] theorem setPort_ports (s : State) (i : Site) (p : LinkPort) : (setPort s i p).ports = s.ports.set i p := rfl
@[simp] theorem setPort_rail (s : State) (i : Site) (p : LinkPort) : (setPort s i p).rail = s.rail := rfl
@[simp] theorem setPort_reading (s : State) (i : Site) (p : LinkPort) : (setPort s i p).reading = s.reading := rfl
@[simp] theorem setPort_mirror (s : State) (i : Site) (p : LinkPort) : (setPort s i p).mirror = s.mirror := rfl
@[simp] theorem setPort_contactLine (s : State) (i : Site) (p : LinkPort) : (setPort s i p).contactLine = s.contactLine := rfl
@[simp] theorem setPort_pending (s : State) (i : Site) (p : LinkPort) : (setPort s i p).pending = s.pending := rfl

/-! ## setLot -/

@[simp] theorem setLot_ram (s : State) (l : LotController) : (setLot s l).ram = s.ram := rfl
@[simp] theorem setLot_phase (s : State) (l : LotController) : (setLot s l).phase = s.phase := rfl
@[simp] theorem setLot_straps (s : State) (l : LotController) : (setLot s l).straps = s.straps := rfl
@[simp] theorem setLot_enables (s : State) (l : LotController) : (setLot s l).enables = s.enables := rfl
@[simp] theorem setLot_attention (s : State) (l : LotController) : (setLot s l).attention = s.attention := rfl
@[simp] theorem setLot_requests (s : State) (l : LotController) : (setLot s l).requests = s.requests := rfl
@[simp] theorem setLot_lot (s : State) (l : LotController) : (setLot s l).lot = l := rfl
@[simp] theorem setLot_derivation (s : State) (l : LotController) : (setLot s l).derivation = s.derivation := rfl
@[simp] theorem setLot_touchdown (s : State) (l : LotController) : (setLot s l).touchdown = s.touchdown := rfl
@[simp] theorem setLot_channels (s : State) (l : LotController) : (setLot s l).channels = s.channels := rfl
@[simp] theorem setLot_ports (s : State) (l : LotController) : (setLot s l).ports = s.ports := rfl
@[simp] theorem setLot_rail (s : State) (l : LotController) : (setLot s l).rail = s.rail := rfl
@[simp] theorem setLot_reading (s : State) (l : LotController) : (setLot s l).reading = s.reading := rfl
@[simp] theorem setLot_mirror (s : State) (l : LotController) : (setLot s l).mirror = s.mirror := rfl
@[simp] theorem setLot_contactLine (s : State) (l : LotController) : (setLot s l).contactLine = s.contactLine := rfl
@[simp] theorem setLot_pending (s : State) (l : LotController) : (setLot s l).pending = s.pending := rfl

/-! ## setRequests -/

@[simp] theorem setRequests_ram (s : State) (r : RequestUnit) : (setRequests s r).ram = s.ram := rfl
@[simp] theorem setRequests_phase (s : State) (r : RequestUnit) : (setRequests s r).phase = s.phase := rfl
@[simp] theorem setRequests_straps (s : State) (r : RequestUnit) : (setRequests s r).straps = s.straps := rfl
@[simp] theorem setRequests_enables (s : State) (r : RequestUnit) : (setRequests s r).enables = s.enables := rfl
@[simp] theorem setRequests_attention (s : State) (r : RequestUnit) : (setRequests s r).attention = s.attention := rfl
@[simp] theorem setRequests_requests (s : State) (r : RequestUnit) : (setRequests s r).requests = r := rfl
@[simp] theorem setRequests_lot (s : State) (r : RequestUnit) : (setRequests s r).lot = s.lot := rfl
@[simp] theorem setRequests_derivation (s : State) (r : RequestUnit) : (setRequests s r).derivation = s.derivation := rfl
@[simp] theorem setRequests_touchdown (s : State) (r : RequestUnit) : (setRequests s r).touchdown = s.touchdown := rfl
@[simp] theorem setRequests_channels (s : State) (r : RequestUnit) : (setRequests s r).channels = s.channels := rfl
@[simp] theorem setRequests_ports (s : State) (r : RequestUnit) : (setRequests s r).ports = s.ports := rfl
@[simp] theorem setRequests_rail (s : State) (r : RequestUnit) : (setRequests s r).rail = s.rail := rfl
@[simp] theorem setRequests_reading (s : State) (r : RequestUnit) : (setRequests s r).reading = s.reading := rfl
@[simp] theorem setRequests_mirror (s : State) (r : RequestUnit) : (setRequests s r).mirror = s.mirror := rfl
@[simp] theorem setRequests_contactLine (s : State) (r : RequestUnit) : (setRequests s r).contactLine = s.contactLine := rfl
@[simp] theorem setRequests_pending (s : State) (r : RequestUnit) : (setRequests s r).pending = s.pending := rfl

/-! ## setDerivation -/

@[simp] theorem setDerivation_ram (s : State) (d : DerivationUnit) : (setDerivation s d).ram = s.ram := rfl
@[simp] theorem setDerivation_phase (s : State) (d : DerivationUnit) : (setDerivation s d).phase = s.phase := rfl
@[simp] theorem setDerivation_straps (s : State) (d : DerivationUnit) : (setDerivation s d).straps = s.straps := rfl
@[simp] theorem setDerivation_enables (s : State) (d : DerivationUnit) : (setDerivation s d).enables = s.enables := rfl
@[simp] theorem setDerivation_attention (s : State) (d : DerivationUnit) : (setDerivation s d).attention = s.attention := rfl
@[simp] theorem setDerivation_requests (s : State) (d : DerivationUnit) : (setDerivation s d).requests = s.requests := rfl
@[simp] theorem setDerivation_lot (s : State) (d : DerivationUnit) : (setDerivation s d).lot = s.lot := rfl
@[simp] theorem setDerivation_derivation (s : State) (d : DerivationUnit) : (setDerivation s d).derivation = d := rfl
@[simp] theorem setDerivation_touchdown (s : State) (d : DerivationUnit) : (setDerivation s d).touchdown = s.touchdown := rfl
@[simp] theorem setDerivation_channels (s : State) (d : DerivationUnit) : (setDerivation s d).channels = s.channels := rfl
@[simp] theorem setDerivation_ports (s : State) (d : DerivationUnit) : (setDerivation s d).ports = s.ports := rfl
@[simp] theorem setDerivation_rail (s : State) (d : DerivationUnit) : (setDerivation s d).rail = s.rail := rfl
@[simp] theorem setDerivation_reading (s : State) (d : DerivationUnit) : (setDerivation s d).reading = s.reading := rfl
@[simp] theorem setDerivation_mirror (s : State) (d : DerivationUnit) : (setDerivation s d).mirror = s.mirror := rfl
@[simp] theorem setDerivation_contactLine (s : State) (d : DerivationUnit) : (setDerivation s d).contactLine = s.contactLine := rfl
@[simp] theorem setDerivation_pending (s : State) (d : DerivationUnit) : (setDerivation s d).pending = s.pending := rfl

/-! ## setTouchdown -/

@[simp] theorem setTouchdown_ram (s : State) (x : TouchdownController) : (setTouchdown s x).ram = s.ram := rfl
@[simp] theorem setTouchdown_phase (s : State) (x : TouchdownController) : (setTouchdown s x).phase = s.phase := rfl
@[simp] theorem setTouchdown_straps (s : State) (x : TouchdownController) : (setTouchdown s x).straps = s.straps := rfl
@[simp] theorem setTouchdown_enables (s : State) (x : TouchdownController) : (setTouchdown s x).enables = s.enables := rfl
@[simp] theorem setTouchdown_attention (s : State) (x : TouchdownController) : (setTouchdown s x).attention = s.attention := rfl
@[simp] theorem setTouchdown_requests (s : State) (x : TouchdownController) : (setTouchdown s x).requests = s.requests := rfl
@[simp] theorem setTouchdown_lot (s : State) (x : TouchdownController) : (setTouchdown s x).lot = s.lot := rfl
@[simp] theorem setTouchdown_derivation (s : State) (x : TouchdownController) : (setTouchdown s x).derivation = s.derivation := rfl
@[simp] theorem setTouchdown_touchdown (s : State) (x : TouchdownController) : (setTouchdown s x).touchdown = x := rfl
@[simp] theorem setTouchdown_channels (s : State) (x : TouchdownController) : (setTouchdown s x).channels = s.channels := rfl
@[simp] theorem setTouchdown_ports (s : State) (x : TouchdownController) : (setTouchdown s x).ports = s.ports := rfl
@[simp] theorem setTouchdown_rail (s : State) (x : TouchdownController) : (setTouchdown s x).rail = s.rail := rfl
@[simp] theorem setTouchdown_reading (s : State) (x : TouchdownController) : (setTouchdown s x).reading = s.reading := rfl
@[simp] theorem setTouchdown_mirror (s : State) (x : TouchdownController) : (setTouchdown s x).mirror = s.mirror := rfl
@[simp] theorem setTouchdown_contactLine (s : State) (x : TouchdownController) : (setTouchdown s x).contactLine = s.contactLine := rfl
@[simp] theorem setTouchdown_pending (s : State) (x : TouchdownController) : (setTouchdown s x).pending = s.pending := rfl

/-! ## setRail -/

@[simp] theorem setRail_ram (s : State) (r : RailController) : (setRail s r).ram = s.ram := rfl
@[simp] theorem setRail_phase (s : State) (r : RailController) : (setRail s r).phase = s.phase := rfl
@[simp] theorem setRail_straps (s : State) (r : RailController) : (setRail s r).straps = s.straps := rfl
@[simp] theorem setRail_enables (s : State) (r : RailController) : (setRail s r).enables = s.enables := rfl
@[simp] theorem setRail_attention (s : State) (r : RailController) : (setRail s r).attention = s.attention := rfl
@[simp] theorem setRail_requests (s : State) (r : RailController) : (setRail s r).requests = s.requests := rfl
@[simp] theorem setRail_lot (s : State) (r : RailController) : (setRail s r).lot = s.lot := rfl
@[simp] theorem setRail_derivation (s : State) (r : RailController) : (setRail s r).derivation = s.derivation := rfl
@[simp] theorem setRail_touchdown (s : State) (r : RailController) : (setRail s r).touchdown = s.touchdown := rfl
@[simp] theorem setRail_channels (s : State) (r : RailController) : (setRail s r).channels = s.channels := rfl
@[simp] theorem setRail_ports (s : State) (r : RailController) : (setRail s r).ports = s.ports := rfl
@[simp] theorem setRail_rail (s : State) (r : RailController) : (setRail s r).rail = r := rfl
@[simp] theorem setRail_reading (s : State) (r : RailController) : (setRail s r).reading = s.reading := rfl
@[simp] theorem setRail_mirror (s : State) (r : RailController) : (setRail s r).mirror = s.mirror := rfl
@[simp] theorem setRail_contactLine (s : State) (r : RailController) : (setRail s r).contactLine = s.contactLine := rfl
@[simp] theorem setRail_pending (s : State) (r : RailController) : (setRail s r).pending = s.pending := rfl

/-! ## setMirror -/

@[simp] theorem setMirror_ram (s : State) (m : MirrorWriter) : (setMirror s m).ram = s.ram := rfl
@[simp] theorem setMirror_phase (s : State) (m : MirrorWriter) : (setMirror s m).phase = s.phase := rfl
@[simp] theorem setMirror_straps (s : State) (m : MirrorWriter) : (setMirror s m).straps = s.straps := rfl
@[simp] theorem setMirror_enables (s : State) (m : MirrorWriter) : (setMirror s m).enables = s.enables := rfl
@[simp] theorem setMirror_attention (s : State) (m : MirrorWriter) : (setMirror s m).attention = s.attention := rfl
@[simp] theorem setMirror_requests (s : State) (m : MirrorWriter) : (setMirror s m).requests = s.requests := rfl
@[simp] theorem setMirror_lot (s : State) (m : MirrorWriter) : (setMirror s m).lot = s.lot := rfl
@[simp] theorem setMirror_derivation (s : State) (m : MirrorWriter) : (setMirror s m).derivation = s.derivation := rfl
@[simp] theorem setMirror_touchdown (s : State) (m : MirrorWriter) : (setMirror s m).touchdown = s.touchdown := rfl
@[simp] theorem setMirror_channels (s : State) (m : MirrorWriter) : (setMirror s m).channels = s.channels := rfl
@[simp] theorem setMirror_ports (s : State) (m : MirrorWriter) : (setMirror s m).ports = s.ports := rfl
@[simp] theorem setMirror_rail (s : State) (m : MirrorWriter) : (setMirror s m).rail = s.rail := rfl
@[simp] theorem setMirror_reading (s : State) (m : MirrorWriter) : (setMirror s m).reading = s.reading := rfl
@[simp] theorem setMirror_mirror (s : State) (m : MirrorWriter) : (setMirror s m).mirror = m := rfl
@[simp] theorem setMirror_contactLine (s : State) (m : MirrorWriter) : (setMirror s m).contactLine = s.contactLine := rfl
@[simp] theorem setMirror_pending (s : State) (m : MirrorWriter) : (setMirror s m).pending = s.pending := rfl

/-! ## raise -/

@[simp] theorem raise_ram (s : State) (c : AttentionCause) : (raise s c).ram = s.ram := rfl
@[simp] theorem raise_phase (s : State) (c : AttentionCause) : (raise s c).phase = s.phase := rfl
@[simp] theorem raise_straps (s : State) (c : AttentionCause) : (raise s c).straps = s.straps := rfl
@[simp] theorem raise_enables (s : State) (c : AttentionCause) : (raise s c).enables = s.enables := rfl
@[simp] theorem raise_requests (s : State) (c : AttentionCause) : (raise s c).requests = s.requests := rfl
@[simp] theorem raise_lot (s : State) (c : AttentionCause) : (raise s c).lot = s.lot := rfl
@[simp] theorem raise_derivation (s : State) (c : AttentionCause) : (raise s c).derivation = s.derivation := rfl
@[simp] theorem raise_touchdown (s : State) (c : AttentionCause) : (raise s c).touchdown = s.touchdown := rfl
@[simp] theorem raise_channels (s : State) (c : AttentionCause) : (raise s c).channels = s.channels := rfl
@[simp] theorem raise_ports (s : State) (c : AttentionCause) : (raise s c).ports = s.ports := rfl
@[simp] theorem raise_rail (s : State) (c : AttentionCause) : (raise s c).rail = s.rail := rfl
@[simp] theorem raise_reading (s : State) (c : AttentionCause) : (raise s c).reading = s.reading := rfl
@[simp] theorem raise_mirror (s : State) (c : AttentionCause) : (raise s c).mirror = s.mirror := rfl
@[simp] theorem raise_contactLine (s : State) (c : AttentionCause) : (raise s c).contactLine = s.contactLine := rfl
@[simp] theorem raise_pending (s : State) (c : AttentionCause) : (raise s c).pending = s.pending := rfl

/-! ## modifyChannel -/

@[simp] theorem modifyChannel_ram (s : State) (i : Site) (f : SiteChannel → SiteChannel) : (modifyChannel s i f).ram = s.ram := rfl
@[simp] theorem modifyChannel_phase (s : State) (i : Site) (f : SiteChannel → SiteChannel) : (modifyChannel s i f).phase = s.phase := rfl
@[simp] theorem modifyChannel_straps (s : State) (i : Site) (f : SiteChannel → SiteChannel) : (modifyChannel s i f).straps = s.straps := rfl
@[simp] theorem modifyChannel_enables (s : State) (i : Site) (f : SiteChannel → SiteChannel) : (modifyChannel s i f).enables = s.enables := rfl
@[simp] theorem modifyChannel_attention (s : State) (i : Site) (f : SiteChannel → SiteChannel) : (modifyChannel s i f).attention = s.attention := rfl
@[simp] theorem modifyChannel_requests (s : State) (i : Site) (f : SiteChannel → SiteChannel) : (modifyChannel s i f).requests = s.requests := rfl
@[simp] theorem modifyChannel_lot (s : State) (i : Site) (f : SiteChannel → SiteChannel) : (modifyChannel s i f).lot = s.lot := rfl
@[simp] theorem modifyChannel_derivation (s : State) (i : Site) (f : SiteChannel → SiteChannel) : (modifyChannel s i f).derivation = s.derivation := rfl
@[simp] theorem modifyChannel_touchdown (s : State) (i : Site) (f : SiteChannel → SiteChannel) : (modifyChannel s i f).touchdown = s.touchdown := rfl
@[simp] theorem modifyChannel_ports (s : State) (i : Site) (f : SiteChannel → SiteChannel) : (modifyChannel s i f).ports = s.ports := rfl
@[simp] theorem modifyChannel_rail (s : State) (i : Site) (f : SiteChannel → SiteChannel) : (modifyChannel s i f).rail = s.rail := rfl
@[simp] theorem modifyChannel_reading (s : State) (i : Site) (f : SiteChannel → SiteChannel) : (modifyChannel s i f).reading = s.reading := rfl
@[simp] theorem modifyChannel_mirror (s : State) (i : Site) (f : SiteChannel → SiteChannel) : (modifyChannel s i f).mirror = s.mirror := rfl
@[simp] theorem modifyChannel_contactLine (s : State) (i : Site) (f : SiteChannel → SiteChannel) : (modifyChannel s i f).contactLine = s.contactLine := rfl
@[simp] theorem modifyChannel_pending (s : State) (i : Site) (f : SiteChannel → SiteChannel) : (modifyChannel s i f).pending = s.pending := rfl

/-! ## setActivity -/

@[simp] theorem setActivity_ram (s : State) (i : Site) (a : Activity) : (setActivity s i a).ram = s.ram := rfl
@[simp] theorem setActivity_phase (s : State) (i : Site) (a : Activity) : (setActivity s i a).phase = s.phase := rfl
@[simp] theorem setActivity_straps (s : State) (i : Site) (a : Activity) : (setActivity s i a).straps = s.straps := rfl
@[simp] theorem setActivity_enables (s : State) (i : Site) (a : Activity) : (setActivity s i a).enables = s.enables := rfl
@[simp] theorem setActivity_attention (s : State) (i : Site) (a : Activity) : (setActivity s i a).attention = s.attention := rfl
@[simp] theorem setActivity_requests (s : State) (i : Site) (a : Activity) : (setActivity s i a).requests = s.requests := rfl
@[simp] theorem setActivity_lot (s : State) (i : Site) (a : Activity) : (setActivity s i a).lot = s.lot := rfl
@[simp] theorem setActivity_derivation (s : State) (i : Site) (a : Activity) : (setActivity s i a).derivation = s.derivation := rfl
@[simp] theorem setActivity_touchdown (s : State) (i : Site) (a : Activity) : (setActivity s i a).touchdown = s.touchdown := rfl
@[simp] theorem setActivity_ports (s : State) (i : Site) (a : Activity) : (setActivity s i a).ports = s.ports := rfl
@[simp] theorem setActivity_rail (s : State) (i : Site) (a : Activity) : (setActivity s i a).rail = s.rail := rfl
@[simp] theorem setActivity_reading (s : State) (i : Site) (a : Activity) : (setActivity s i a).reading = s.reading := rfl
@[simp] theorem setActivity_mirror (s : State) (i : Site) (a : Activity) : (setActivity s i a).mirror = s.mirror := rfl
@[simp] theorem setActivity_contactLine (s : State) (i : Site) (a : Activity) : (setActivity s i a).contactLine = s.contactLine := rfl
@[simp] theorem setActivity_pending (s : State) (i : Site) (a : Activity) : (setActivity s i a).pending = s.pending := rfl

/-! ## modifyPort -/

@[simp] theorem modifyPort_ram (s : State) (i : Site) (f : LinkPort → LinkPort) : (modifyPort s i f).ram = s.ram := rfl
@[simp] theorem modifyPort_phase (s : State) (i : Site) (f : LinkPort → LinkPort) : (modifyPort s i f).phase = s.phase := rfl
@[simp] theorem modifyPort_straps (s : State) (i : Site) (f : LinkPort → LinkPort) : (modifyPort s i f).straps = s.straps := rfl
@[simp] theorem modifyPort_enables (s : State) (i : Site) (f : LinkPort → LinkPort) : (modifyPort s i f).enables = s.enables := rfl
@[simp] theorem modifyPort_attention (s : State) (i : Site) (f : LinkPort → LinkPort) : (modifyPort s i f).attention = s.attention := rfl
@[simp] theorem modifyPort_requests (s : State) (i : Site) (f : LinkPort → LinkPort) : (modifyPort s i f).requests = s.requests := rfl
@[simp] theorem modifyPort_lot (s : State) (i : Site) (f : LinkPort → LinkPort) : (modifyPort s i f).lot = s.lot := rfl
@[simp] theorem modifyPort_derivation (s : State) (i : Site) (f : LinkPort → LinkPort) : (modifyPort s i f).derivation = s.derivation := rfl
@[simp] theorem modifyPort_touchdown (s : State) (i : Site) (f : LinkPort → LinkPort) : (modifyPort s i f).touchdown = s.touchdown := rfl
@[simp] theorem modifyPort_channels (s : State) (i : Site) (f : LinkPort → LinkPort) : (modifyPort s i f).channels = s.channels := rfl
@[simp] theorem modifyPort_rail (s : State) (i : Site) (f : LinkPort → LinkPort) : (modifyPort s i f).rail = s.rail := rfl
@[simp] theorem modifyPort_reading (s : State) (i : Site) (f : LinkPort → LinkPort) : (modifyPort s i f).reading = s.reading := rfl
@[simp] theorem modifyPort_mirror (s : State) (i : Site) (f : LinkPort → LinkPort) : (modifyPort s i f).mirror = s.mirror := rfl
@[simp] theorem modifyPort_contactLine (s : State) (i : Site) (f : LinkPort → LinkPort) : (modifyPort s i f).contactLine = s.contactLine := rfl
@[simp] theorem modifyPort_pending (s : State) (i : Site) (f : LinkPort → LinkPort) : (modifyPort s i f).pending = s.pending := rfl

/-! ## countOn -/

@[simp] theorem countOn_ram (s : State) (i : Site) (f : LinkCounters → LinkCounters) : (countOn s i f).ram = s.ram := rfl
@[simp] theorem countOn_phase (s : State) (i : Site) (f : LinkCounters → LinkCounters) : (countOn s i f).phase = s.phase := rfl
@[simp] theorem countOn_straps (s : State) (i : Site) (f : LinkCounters → LinkCounters) : (countOn s i f).straps = s.straps := rfl
@[simp] theorem countOn_enables (s : State) (i : Site) (f : LinkCounters → LinkCounters) : (countOn s i f).enables = s.enables := rfl
@[simp] theorem countOn_attention (s : State) (i : Site) (f : LinkCounters → LinkCounters) : (countOn s i f).attention = s.attention := rfl
@[simp] theorem countOn_requests (s : State) (i : Site) (f : LinkCounters → LinkCounters) : (countOn s i f).requests = s.requests := rfl
@[simp] theorem countOn_lot (s : State) (i : Site) (f : LinkCounters → LinkCounters) : (countOn s i f).lot = s.lot := rfl
@[simp] theorem countOn_derivation (s : State) (i : Site) (f : LinkCounters → LinkCounters) : (countOn s i f).derivation = s.derivation := rfl
@[simp] theorem countOn_touchdown (s : State) (i : Site) (f : LinkCounters → LinkCounters) : (countOn s i f).touchdown = s.touchdown := rfl
@[simp] theorem countOn_channels (s : State) (i : Site) (f : LinkCounters → LinkCounters) : (countOn s i f).channels = s.channels := rfl
@[simp] theorem countOn_rail (s : State) (i : Site) (f : LinkCounters → LinkCounters) : (countOn s i f).rail = s.rail := rfl
@[simp] theorem countOn_reading (s : State) (i : Site) (f : LinkCounters → LinkCounters) : (countOn s i f).reading = s.reading := rfl
@[simp] theorem countOn_mirror (s : State) (i : Site) (f : LinkCounters → LinkCounters) : (countOn s i f).mirror = s.mirror := rfl
@[simp] theorem countOn_contactLine (s : State) (i : Site) (f : LinkCounters → LinkCounters) : (countOn s i f).contactLine = s.contactLine := rfl
@[simp] theorem countOn_pending (s : State) (i : Site) (f : LinkCounters → LinkCounters) : (countOn s i f).pending = s.pending := rfl

/-! ## writeSummary -/

@[simp] theorem writeSummary_phase (s : State) (r : ClosureReason) : (writeSummary s r).phase = s.phase := by simp [writeSummary]
@[simp] theorem writeSummary_straps (s : State) (r : ClosureReason) : (writeSummary s r).straps = s.straps := by simp [writeSummary]
@[simp] theorem writeSummary_enables (s : State) (r : ClosureReason) : (writeSummary s r).enables = s.enables := by simp [writeSummary]
@[simp] theorem writeSummary_attention (s : State) (r : ClosureReason) : (writeSummary s r).attention = s.attention := by simp [writeSummary]
@[simp] theorem writeSummary_requests (s : State) (r : ClosureReason) : (writeSummary s r).requests = s.requests := by simp [writeSummary]
@[simp] theorem writeSummary_lot (s : State) (r : ClosureReason) : (writeSummary s r).lot = s.lot := by simp [writeSummary]
@[simp] theorem writeSummary_derivation (s : State) (r : ClosureReason) : (writeSummary s r).derivation = s.derivation := by simp [writeSummary]
@[simp] theorem writeSummary_touchdown (s : State) (r : ClosureReason) : (writeSummary s r).touchdown = s.touchdown := by simp [writeSummary]
@[simp] theorem writeSummary_channels (s : State) (r : ClosureReason) : (writeSummary s r).channels = s.channels := by simp [writeSummary]
@[simp] theorem writeSummary_ports (s : State) (r : ClosureReason) : (writeSummary s r).ports = s.ports := by simp [writeSummary]
@[simp] theorem writeSummary_rail (s : State) (r : ClosureReason) : (writeSummary s r).rail = s.rail := by simp [writeSummary]
@[simp] theorem writeSummary_reading (s : State) (r : ClosureReason) : (writeSummary s r).reading = s.reading := by simp [writeSummary]
@[simp] theorem writeSummary_mirror (s : State) (r : ClosureReason) : (writeSummary s r).mirror = s.mirror := by simp [writeSummary]
@[simp] theorem writeSummary_contactLine (s : State) (r : ClosureReason) : (writeSummary s r).contactLine = s.contactLine := by simp [writeSummary]
@[simp] theorem writeSummary_pending (s : State) (r : ClosureReason) : (writeSummary s r).pending = s.pending := by simp [writeSummary]

/-! ## writeResumeCopy -/

@[simp] theorem writeResumeCopy_phase (s : State) : (writeResumeCopy s).phase = s.phase := by simp [writeResumeCopy]
@[simp] theorem writeResumeCopy_straps (s : State) : (writeResumeCopy s).straps = s.straps := by simp [writeResumeCopy]
@[simp] theorem writeResumeCopy_enables (s : State) : (writeResumeCopy s).enables = s.enables := by simp [writeResumeCopy]
@[simp] theorem writeResumeCopy_attention (s : State) : (writeResumeCopy s).attention = s.attention := by simp [writeResumeCopy]
@[simp] theorem writeResumeCopy_requests (s : State) : (writeResumeCopy s).requests = s.requests := by simp [writeResumeCopy]
@[simp] theorem writeResumeCopy_lot (s : State) : (writeResumeCopy s).lot = s.lot := by simp [writeResumeCopy]
@[simp] theorem writeResumeCopy_derivation (s : State) : (writeResumeCopy s).derivation = s.derivation := by simp [writeResumeCopy]
@[simp] theorem writeResumeCopy_touchdown (s : State) : (writeResumeCopy s).touchdown = s.touchdown := by simp [writeResumeCopy]
@[simp] theorem writeResumeCopy_channels (s : State) : (writeResumeCopy s).channels = s.channels := by simp [writeResumeCopy]
@[simp] theorem writeResumeCopy_ports (s : State) : (writeResumeCopy s).ports = s.ports := by simp [writeResumeCopy]
@[simp] theorem writeResumeCopy_rail (s : State) : (writeResumeCopy s).rail = s.rail := by simp [writeResumeCopy]
@[simp] theorem writeResumeCopy_reading (s : State) : (writeResumeCopy s).reading = s.reading := by simp [writeResumeCopy]
@[simp] theorem writeResumeCopy_mirror (s : State) : (writeResumeCopy s).mirror = s.mirror := by simp [writeResumeCopy]
@[simp] theorem writeResumeCopy_contactLine (s : State) : (writeResumeCopy s).contactLine = s.contactLine := by simp [writeResumeCopy]
@[simp] theorem writeResumeCopy_pending (s : State) : (writeResumeCopy s).pending = s.pending := by simp [writeResumeCopy]

/-! ## publishSecretState -/

@[simp] theorem publishSecretState_phase (s : State) : (publishSecretState s).phase = s.phase := by simp [publishSecretState]
@[simp] theorem publishSecretState_straps (s : State) : (publishSecretState s).straps = s.straps := by simp [publishSecretState]
@[simp] theorem publishSecretState_enables (s : State) : (publishSecretState s).enables = s.enables := by simp [publishSecretState]
@[simp] theorem publishSecretState_attention (s : State) : (publishSecretState s).attention = s.attention := by simp [publishSecretState]
@[simp] theorem publishSecretState_requests (s : State) : (publishSecretState s).requests = s.requests := by simp [publishSecretState]
@[simp] theorem publishSecretState_lot (s : State) : (publishSecretState s).lot = s.lot := by simp [publishSecretState]
@[simp] theorem publishSecretState_derivation (s : State) : (publishSecretState s).derivation = s.derivation := by simp [publishSecretState]
@[simp] theorem publishSecretState_touchdown (s : State) : (publishSecretState s).touchdown = s.touchdown := by simp [publishSecretState]
@[simp] theorem publishSecretState_channels (s : State) : (publishSecretState s).channels = s.channels := by simp [publishSecretState]
@[simp] theorem publishSecretState_ports (s : State) : (publishSecretState s).ports = s.ports := by simp [publishSecretState]
@[simp] theorem publishSecretState_rail (s : State) : (publishSecretState s).rail = s.rail := by simp [publishSecretState]
@[simp] theorem publishSecretState_reading (s : State) : (publishSecretState s).reading = s.reading := by simp [publishSecretState]
@[simp] theorem publishSecretState_mirror (s : State) : (publishSecretState s).mirror = s.mirror := by simp [publishSecretState]
@[simp] theorem publishSecretState_contactLine (s : State) : (publishSecretState s).contactLine = s.contactLine := by simp [publishSecretState]
@[simp] theorem publishSecretState_pending (s : State) : (publishSecretState s).pending = s.pending := by simp [publishSecretState]

/-! ## writeAnswer -/

@[simp] theorem writeAnswer_phase (s : State) (q : Half) (c : AnswerCode) (d : Word) (ws : List Word) : (writeAnswer s q c d ws).phase = s.phase := by simp [writeAnswer]
@[simp] theorem writeAnswer_straps (s : State) (q : Half) (c : AnswerCode) (d : Word) (ws : List Word) : (writeAnswer s q c d ws).straps = s.straps := by simp [writeAnswer]
@[simp] theorem writeAnswer_enables (s : State) (q : Half) (c : AnswerCode) (d : Word) (ws : List Word) : (writeAnswer s q c d ws).enables = s.enables := by simp [writeAnswer]
@[simp] theorem writeAnswer_attention (s : State) (q : Half) (c : AnswerCode) (d : Word) (ws : List Word) : (writeAnswer s q c d ws).attention = s.attention := by simp [writeAnswer]
@[simp] theorem writeAnswer_requests (s : State) (q : Half) (c : AnswerCode) (d : Word) (ws : List Word) : (writeAnswer s q c d ws).requests = s.requests := by simp [writeAnswer]
@[simp] theorem writeAnswer_lot (s : State) (q : Half) (c : AnswerCode) (d : Word) (ws : List Word) : (writeAnswer s q c d ws).lot = s.lot := by simp [writeAnswer]
@[simp] theorem writeAnswer_derivation (s : State) (q : Half) (c : AnswerCode) (d : Word) (ws : List Word) : (writeAnswer s q c d ws).derivation = s.derivation := by simp [writeAnswer]
@[simp] theorem writeAnswer_touchdown (s : State) (q : Half) (c : AnswerCode) (d : Word) (ws : List Word) : (writeAnswer s q c d ws).touchdown = s.touchdown := by simp [writeAnswer]
@[simp] theorem writeAnswer_channels (s : State) (q : Half) (c : AnswerCode) (d : Word) (ws : List Word) : (writeAnswer s q c d ws).channels = s.channels := by simp [writeAnswer]
@[simp] theorem writeAnswer_ports (s : State) (q : Half) (c : AnswerCode) (d : Word) (ws : List Word) : (writeAnswer s q c d ws).ports = s.ports := by simp [writeAnswer]
@[simp] theorem writeAnswer_rail (s : State) (q : Half) (c : AnswerCode) (d : Word) (ws : List Word) : (writeAnswer s q c d ws).rail = s.rail := by simp [writeAnswer]
@[simp] theorem writeAnswer_reading (s : State) (q : Half) (c : AnswerCode) (d : Word) (ws : List Word) : (writeAnswer s q c d ws).reading = s.reading := by simp [writeAnswer]
@[simp] theorem writeAnswer_mirror (s : State) (q : Half) (c : AnswerCode) (d : Word) (ws : List Word) : (writeAnswer s q c d ws).mirror = s.mirror := by simp [writeAnswer]
@[simp] theorem writeAnswer_contactLine (s : State) (q : Half) (c : AnswerCode) (d : Word) (ws : List Word) : (writeAnswer s q c d ws).contactLine = s.contactLine := by simp [writeAnswer]
@[simp] theorem writeAnswer_pending (s : State) (q : Half) (c : AnswerCode) (d : Word) (ws : List Word) : (writeAnswer s q c d ws).pending = s.pending := by simp [writeAnswer]

/-! ## writeIdentity -/

@[simp] theorem writeIdentity_phase (s : State) : (writeIdentity s).phase = s.phase := by simp [writeIdentity]
@[simp] theorem writeIdentity_straps (s : State) : (writeIdentity s).straps = s.straps := by simp [writeIdentity]
@[simp] theorem writeIdentity_enables (s : State) : (writeIdentity s).enables = s.enables := by simp [writeIdentity]
@[simp] theorem writeIdentity_attention (s : State) : (writeIdentity s).attention = s.attention := by simp [writeIdentity]
@[simp] theorem writeIdentity_requests (s : State) : (writeIdentity s).requests = s.requests := by simp [writeIdentity]
@[simp] theorem writeIdentity_lot (s : State) : (writeIdentity s).lot = s.lot := by simp [writeIdentity]
@[simp] theorem writeIdentity_derivation (s : State) : (writeIdentity s).derivation = s.derivation := by simp [writeIdentity]
@[simp] theorem writeIdentity_touchdown (s : State) : (writeIdentity s).touchdown = s.touchdown := by simp [writeIdentity]
@[simp] theorem writeIdentity_channels (s : State) : (writeIdentity s).channels = s.channels := by simp [writeIdentity]
@[simp] theorem writeIdentity_ports (s : State) : (writeIdentity s).ports = s.ports := by simp [writeIdentity]
@[simp] theorem writeIdentity_rail (s : State) : (writeIdentity s).rail = s.rail := by simp [writeIdentity]
@[simp] theorem writeIdentity_reading (s : State) : (writeIdentity s).reading = s.reading := by simp [writeIdentity]
@[simp] theorem writeIdentity_mirror (s : State) : (writeIdentity s).mirror = s.mirror := by simp [writeIdentity]
@[simp] theorem writeIdentity_contactLine (s : State) : (writeIdentity s).contactLine = s.contactLine := by simp [writeIdentity]
@[simp] theorem writeIdentity_pending (s : State) : (writeIdentity s).pending = s.pending := by simp [writeIdentity]

/-! ## followContact -/

@[simp] theorem followContact_ram (s : State) : (followContact s).ram = s.ram := rfl
@[simp] theorem followContact_phase (s : State) : (followContact s).phase = s.phase := rfl
@[simp] theorem followContact_straps (s : State) : (followContact s).straps = s.straps := rfl
@[simp] theorem followContact_enables (s : State) : (followContact s).enables = s.enables := rfl
@[simp] theorem followContact_attention (s : State) : (followContact s).attention = s.attention := rfl
@[simp] theorem followContact_requests (s : State) : (followContact s).requests = s.requests := rfl
@[simp] theorem followContact_lot (s : State) : (followContact s).lot = s.lot := rfl
@[simp] theorem followContact_derivation (s : State) : (followContact s).derivation = s.derivation := rfl
@[simp] theorem followContact_channels (s : State) : (followContact s).channels = s.channels := rfl
@[simp] theorem followContact_ports (s : State) : (followContact s).ports = s.ports := rfl
@[simp] theorem followContact_rail (s : State) : (followContact s).rail = s.rail := rfl
@[simp] theorem followContact_reading (s : State) : (followContact s).reading = s.reading := rfl
@[simp] theorem followContact_mirror (s : State) : (followContact s).mirror = s.mirror := rfl
@[simp] theorem followContact_contactLine (s : State) : (followContact s).contactLine = s.contactLine := rfl
@[simp] theorem followContact_pending (s : State) : (followContact s).pending = s.pending := rfl

/-! ## latch -/

@[simp] theorem latch_ram (s : State) (x : SiteSet) : (latch s x).ram = s.ram := rfl
@[simp] theorem latch_phase (s : State) (x : SiteSet) : (latch s x).phase = s.phase := rfl
@[simp] theorem latch_straps (s : State) (x : SiteSet) : (latch s x).straps = s.straps := rfl
@[simp] theorem latch_enables (s : State) (x : SiteSet) : (latch s x).enables = s.enables := rfl
@[simp] theorem latch_attention (s : State) (x : SiteSet) : (latch s x).attention = s.attention := rfl
@[simp] theorem latch_requests (s : State) (x : SiteSet) : (latch s x).requests = s.requests := rfl
@[simp] theorem latch_lot (s : State) (x : SiteSet) : (latch s x).lot = s.lot := rfl
@[simp] theorem latch_derivation (s : State) (x : SiteSet) : (latch s x).derivation = s.derivation := rfl
@[simp] theorem latch_channels (s : State) (x : SiteSet) : (latch s x).channels = s.channels := rfl
@[simp] theorem latch_ports (s : State) (x : SiteSet) : (latch s x).ports = s.ports := rfl
@[simp] theorem latch_rail (s : State) (x : SiteSet) : (latch s x).rail = s.rail := rfl
@[simp] theorem latch_reading (s : State) (x : SiteSet) : (latch s x).reading = s.reading := rfl
@[simp] theorem latch_mirror (s : State) (x : SiteSet) : (latch s x).mirror = s.mirror := rfl
@[simp] theorem latch_contactLine (s : State) (x : SiteSet) : (latch s x).contactLine = s.contactLine := rfl
@[simp] theorem latch_pending (s : State) (x : SiteSet) : (latch s x).pending = s.pending := rfl

/-! ## A channel or a port after an update -/

/-- The channel just replaced. -/
@[simp] theorem channelOf_setChannel (s : State) (i : Site) (c : SiteChannel) : channelOf (setChannel s i c) i = c := by
  simp [channelOf, setChannel]

/-- Every other channel is as it was. -/
theorem channelOf_setChannel_ne (s : State) (i : Site) (c : SiteChannel) (j : Site) (h : j ≠ i) :
    channelOf (setChannel s i c) j = channelOf s j := by
  have h' : (i : Nat) ≠ j := fun e => h (Fin.ext e.symm)
  simp [channelOf, setChannel, h']

/-- The port just replaced. -/
@[simp] theorem portOf_setPort (s : State) (i : Site) (p : LinkPort) : portOf (setPort s i p) i = p := by
  simp [portOf, setPort]

/-- Every other port is as it was. -/
theorem portOf_setPort_ne (s : State) (i : Site) (p : LinkPort) (j : Site) (h : j ≠ i) :
    portOf (setPort s i p) j = portOf s j := by
  have h' : (i : Nat) ≠ j := fun e => h (Fin.ext e.symm)
  simp [portOf, setPort, h']

@[simp] theorem channelOf_writeRam (s : State) (a : Nat) (w : Word) (j : Site) : channelOf (writeRam s a w) j = channelOf s j := rfl
@[simp] theorem portOf_writeRam (s : State) (a : Nat) (w : Word) (j : Site) : portOf (writeRam s a w) j = portOf s j := rfl
@[simp] theorem channelOf_writeRamWords (s : State) (a : Nat) (ws : List Word) (j : Site) : channelOf (writeRamWords s a ws) j = channelOf s j := rfl
@[simp] theorem portOf_writeRamWords (s : State) (a : Nat) (ws : List Word) (j : Site) : portOf (writeRamWords s a ws) j = portOf s j := rfl
@[simp] theorem channelOf_zeroRam (s : State) (base len : Nat) (j : Site) : channelOf (zeroRam s base len) j = channelOf s j := rfl
@[simp] theorem portOf_zeroRam (s : State) (base len : Nat) (j : Site) : portOf (zeroRam s base len) j = portOf s j := rfl
@[simp] theorem portOf_setChannel (s : State) (i : Site) (c : SiteChannel) (j : Site) : portOf (setChannel s i c) j = portOf s j := rfl
@[simp] theorem channelOf_setPort (s : State) (i : Site) (p : LinkPort) (j : Site) : channelOf (setPort s i p) j = channelOf s j := rfl
@[simp] theorem channelOf_setLot (s : State) (l : LotController) (j : Site) : channelOf (setLot s l) j = channelOf s j := rfl
@[simp] theorem portOf_setLot (s : State) (l : LotController) (j : Site) : portOf (setLot s l) j = portOf s j := rfl
@[simp] theorem channelOf_setRequests (s : State) (r : RequestUnit) (j : Site) : channelOf (setRequests s r) j = channelOf s j := rfl
@[simp] theorem portOf_setRequests (s : State) (r : RequestUnit) (j : Site) : portOf (setRequests s r) j = portOf s j := rfl
@[simp] theorem channelOf_setDerivation (s : State) (d : DerivationUnit) (j : Site) : channelOf (setDerivation s d) j = channelOf s j := rfl
@[simp] theorem portOf_setDerivation (s : State) (d : DerivationUnit) (j : Site) : portOf (setDerivation s d) j = portOf s j := rfl
@[simp] theorem channelOf_setTouchdown (s : State) (x : TouchdownController) (j : Site) : channelOf (setTouchdown s x) j = channelOf s j := rfl
@[simp] theorem portOf_setTouchdown (s : State) (x : TouchdownController) (j : Site) : portOf (setTouchdown s x) j = portOf s j := rfl
@[simp] theorem channelOf_setRail (s : State) (r : RailController) (j : Site) : channelOf (setRail s r) j = channelOf s j := rfl
@[simp] theorem portOf_setRail (s : State) (r : RailController) (j : Site) : portOf (setRail s r) j = portOf s j := rfl
@[simp] theorem channelOf_setMirror (s : State) (m : MirrorWriter) (j : Site) : channelOf (setMirror s m) j = channelOf s j := rfl
@[simp] theorem portOf_setMirror (s : State) (m : MirrorWriter) (j : Site) : portOf (setMirror s m) j = portOf s j := rfl
@[simp] theorem channelOf_raise (s : State) (c : AttentionCause) (j : Site) : channelOf (raise s c) j = channelOf s j := rfl
@[simp] theorem portOf_raise (s : State) (c : AttentionCause) (j : Site) : portOf (raise s c) j = portOf s j := rfl
@[simp] theorem channelOf_writeSummary (s : State) (r : ClosureReason) (j : Site) : channelOf (writeSummary s r) j = channelOf s j := by simp [channelOf]
@[simp] theorem portOf_writeSummary (s : State) (r : ClosureReason) (j : Site) : portOf (writeSummary s r) j = portOf s j := by simp [portOf]
@[simp] theorem channelOf_writeResumeCopy (s : State) (j : Site) : channelOf (writeResumeCopy s) j = channelOf s j := by simp [channelOf]
@[simp] theorem portOf_writeResumeCopy (s : State) (j : Site) : portOf (writeResumeCopy s) j = portOf s j := by simp [portOf]
@[simp] theorem channelOf_publishSecretState (s : State) (j : Site) : channelOf (publishSecretState s) j = channelOf s j := by simp [channelOf]
@[simp] theorem portOf_publishSecretState (s : State) (j : Site) : portOf (publishSecretState s) j = portOf s j := by simp [portOf]
@[simp] theorem channelOf_writeAnswer (s : State) (q : Half) (c : AnswerCode) (d : Word) (ws : List Word) (j : Site) : channelOf (writeAnswer s q c d ws) j = channelOf s j := by simp [channelOf]
@[simp] theorem portOf_writeAnswer (s : State) (q : Half) (c : AnswerCode) (d : Word) (ws : List Word) (j : Site) : portOf (writeAnswer s q c d ws) j = portOf s j := by simp [portOf]
@[simp] theorem channelOf_writeIdentity (s : State) (j : Site) : channelOf (writeIdentity s) j = channelOf s j := by simp [channelOf]
@[simp] theorem portOf_writeIdentity (s : State) (j : Site) : portOf (writeIdentity s) j = portOf s j := by simp [portOf]
@[simp] theorem channelOf_followContact (s : State) (j : Site) : channelOf (followContact s) j = channelOf s j := rfl
@[simp] theorem portOf_followContact (s : State) (j : Site) : portOf (followContact s) j = portOf s j := rfl
@[simp] theorem channelOf_latch (s : State) (x : SiteSet) (j : Site) : channelOf (latch s x) j = channelOf s j := rfl
@[simp] theorem portOf_latch (s : State) (x : SiteSet) (j : Site) : portOf (latch s x) j = portOf s j := rfl
@[simp] theorem portOf_modifyChannel (s : State) (i : Site) (f : SiteChannel → SiteChannel) (j : Site) : portOf (modifyChannel s i f) j = portOf s j := rfl
@[simp] theorem portOf_setActivity (s : State) (i : Site) (x : Activity) (j : Site) : portOf (setActivity s i x) j = portOf s j := rfl
@[simp] theorem channelOf_modifyPort (s : State) (i : Site) (f : LinkPort → LinkPort) (j : Site) : channelOf (modifyPort s i f) j = channelOf s j := rfl
@[simp] theorem channelOf_countOn (s : State) (i : Site) (f : LinkCounters → LinkCounters) (j : Site) : channelOf (countOn s i f) j = channelOf s j := rfl

@[simp] theorem channelOf_modifyChannel (s : State) (i : Site) (f : SiteChannel → SiteChannel) :
    channelOf (modifyChannel s i f) i = f (channelOf s i) := by simp [modifyChannel]

theorem channelOf_modifyChannel_ne (s : State) (i : Site) (f : SiteChannel → SiteChannel) (j : Site) (h : j ≠ i) :
    channelOf (modifyChannel s i f) j = channelOf s j := channelOf_setChannel_ne s i _ j h

@[simp] theorem channelOf_setActivity (s : State) (i : Site) (a : Activity) :
    channelOf (setActivity s i a) i = { channelOf s i with activity := a } := by simp [setActivity]

theorem channelOf_setActivity_ne (s : State) (i : Site) (a : Activity) (j : Site) (h : j ≠ i) :
    channelOf (setActivity s i a) j = channelOf s j := channelOf_modifyChannel_ne s i _ j h

@[simp] theorem portOf_modifyPort (s : State) (i : Site) (f : LinkPort → LinkPort) :
    portOf (modifyPort s i f) i = f (portOf s i) := by simp [modifyPort]

theorem portOf_modifyPort_ne (s : State) (i : Site) (f : LinkPort → LinkPort) (j : Site) (h : j ≠ i) :
    portOf (modifyPort s i f) j = portOf s j := portOf_setPort_ne s i _ j h

@[simp] theorem portOf_countOn (s : State) (i : Site) (f : LinkCounters → LinkCounters) :
    portOf (countOn s i f) i = { portOf s i with counters := f (portOf s i).counters } := by simp [countOn]

theorem portOf_countOn_ne (s : State) (i : Site) (f : LinkCounters → LinkCounters) (j : Site) (h : j ≠ i) :
    portOf (countOn s i f) j = portOf s j := portOf_modifyPort_ne s i _ j h

/-- Two states with equal fields are equal. -/
theorem State.eq_of_fields {s t : State} (ram : s.ram = t.ram) (phase : s.phase = t.phase) (straps : s.straps = t.straps)
    (enables : s.enables = t.enables) (attention : s.attention = t.attention) (requests : s.requests = t.requests)
    (lot : s.lot = t.lot) (derivation : s.derivation = t.derivation) (touchdown : s.touchdown = t.touchdown)
    (channels : s.channels = t.channels) (ports : s.ports = t.ports) (rail : s.rail = t.rail)
    (reading : s.reading = t.reading) (mirror : s.mirror = t.mirror) (contactLine : s.contactLine = t.contactLine)
    (pending : s.pending = t.pending) : s = t := by
  cases s
  cases t
  simp_all

end Sys2Proof.Machine
end

