-- ==== Sys2Proof/Laws/Frames.lean ====
section
/-!
SUPPORT. What each shared operation can change: one lemma per operation, naming every block it leaves as it was. The provers
cite these instead of unfolding the operation.
-/

namespace Sys2Proof.Machine

/-- What every step of a loop over sites keeps, the loop keeps. -/
theorem forSites_keeps {α : Type} (g : State → α) {f : State → Site → State} (h : ∀ s i, g (f s i) = g s)
    (l : List Site) (s : State) : g (forSites l f s) = g s := by
  induction l generalizing s with
  | nil => rfl
  | cons i l ih =>
    show g (forSites l f (f s i)) = g s
    rw [ih, h]

/-- An invariant of every step of a loop over sites is one of the loop. -/
theorem forSites_inv (P : State → Prop) {f : State → Site → State} (h : ∀ s i, P s → P (f s i)) (l : List Site)
    (s : State) (hs : P s) : P (forSites l f s) := by
  induction l generalizing s with
  | nil => exact hs
  | cons i l ih => exact ih (f s i) (h s i hs)

/-! ## Site channels -/

/-- What `writeRecord` leaves: everything but ram. -/
@[simp] theorem writeRecord_keeps (s : State) (i : Site) (d : Disposition) (c : Option SpoilCause) :
    (writeRecord s i d c).phase = s.phase ∧ (writeRecord s i d c).straps = s.straps ∧
    (writeRecord s i d c).enables = s.enables ∧ (writeRecord s i d c).attention = s.attention ∧
    (writeRecord s i d c).requests = s.requests ∧ (writeRecord s i d c).lot = s.lot ∧
    (writeRecord s i d c).derivation = s.derivation ∧ (writeRecord s i d c).touchdown = s.touchdown ∧
    (writeRecord s i d c).channels = s.channels ∧ (writeRecord s i d c).ports = s.ports ∧
    (writeRecord s i d c).rail = s.rail ∧ (writeRecord s i d c).reading = s.reading ∧
    (writeRecord s i d c).mirror = s.mirror ∧ (writeRecord s i d c).contactLine = s.contactLine ∧
    (writeRecord s i d c).pending = s.pending := by
  unfold writeRecord
  try dsimp only
  repeat' split
  all_goals simp

/-- What `finish` leaves: everything but ram, channels. -/
@[simp] theorem finish_keeps (s : State) (i : Site) (d : Disposition) (c : Option SpoilCause) :
    (finish s i d c).phase = s.phase ∧ (finish s i d c).straps = s.straps ∧ (finish s i d c).enables = s.enables ∧
    (finish s i d c).attention = s.attention ∧ (finish s i d c).requests = s.requests ∧
    (finish s i d c).lot = s.lot ∧ (finish s i d c).derivation = s.derivation ∧
    (finish s i d c).touchdown = s.touchdown ∧ (finish s i d c).ports = s.ports ∧ (finish s i d c).rail = s.rail ∧
    (finish s i d c).reading = s.reading ∧ (finish s i d c).mirror = s.mirror ∧
    (finish s i d c).contactLine = s.contactLine ∧ (finish s i d c).pending = s.pending := by
  unfold finish
  try dsimp only
  all_goals simp

/-- What `endDie` leaves: everything but ram, channels. -/
@[simp] theorem endDie_keeps (s : State) (i : Site) (o : Outcome) (d : Disposition) :
    (endDie s i o d).phase = s.phase ∧ (endDie s i o d).straps = s.straps ∧ (endDie s i o d).enables = s.enables ∧
    (endDie s i o d).attention = s.attention ∧ (endDie s i o d).requests = s.requests ∧
    (endDie s i o d).lot = s.lot ∧ (endDie s i o d).derivation = s.derivation ∧
    (endDie s i o d).touchdown = s.touchdown ∧ (endDie s i o d).ports = s.ports ∧ (endDie s i o d).rail = s.rail ∧
    (endDie s i o d).reading = s.reading ∧ (endDie s i o d).mirror = s.mirror ∧
    (endDie s i o d).contactLine = s.contactLine ∧ (endDie s i o d).pending = s.pending := by
  unfold endDie
  try dsimp only
  all_goals simp

/-- What `reportOutcome` leaves: everything but channels. -/
@[simp] theorem reportOutcome_keeps (s : State) (i : Site) (o : Outcome) (r : Report) :
    (reportOutcome s i o r).ram = s.ram ∧ (reportOutcome s i o r).phase = s.phase ∧
    (reportOutcome s i o r).straps = s.straps ∧ (reportOutcome s i o r).enables = s.enables ∧
    (reportOutcome s i o r).attention = s.attention ∧ (reportOutcome s i o r).requests = s.requests ∧
    (reportOutcome s i o r).lot = s.lot ∧ (reportOutcome s i o r).derivation = s.derivation ∧
    (reportOutcome s i o r).touchdown = s.touchdown ∧ (reportOutcome s i o r).ports = s.ports ∧
    (reportOutcome s i o r).rail = s.rail ∧ (reportOutcome s i o r).reading = s.reading ∧
    (reportOutcome s i o r).mirror = s.mirror ∧ (reportOutcome s i o r).contactLine = s.contactLine ∧
    (reportOutcome s i o r).pending = s.pending := by
  unfold reportOutcome
  try dsimp only
  all_goals simp

/-- What `spoilAt` leaves: everything but channels. -/
@[simp] theorem spoilAt_keeps (s : State) (i : Site) (o : Outcome) (c : SpoilCause) (p : Option Nat) :
    (spoilAt s i o c p).ram = s.ram ∧ (spoilAt s i o c p).phase = s.phase ∧ (spoilAt s i o c p).straps = s.straps ∧
    (spoilAt s i o c p).enables = s.enables ∧ (spoilAt s i o c p).attention = s.attention ∧
    (spoilAt s i o c p).requests = s.requests ∧ (spoilAt s i o c p).lot = s.lot ∧
    (spoilAt s i o c p).derivation = s.derivation ∧ (spoilAt s i o c p).touchdown = s.touchdown ∧
    (spoilAt s i o c p).ports = s.ports ∧ (spoilAt s i o c p).rail = s.rail ∧
    (spoilAt s i o c p).reading = s.reading ∧ (spoilAt s i o c p).mirror = s.mirror ∧
    (spoilAt s i o c p).contactLine = s.contactLine ∧ (spoilAt s i o c p).pending = s.pending := by
  unfold spoilAt
  try dsimp only
  all_goals simp

/-- What `sendOwed` leaves: everything but ram, channels. -/
@[simp] theorem sendOwed_keeps (s : State) (i : Site) :
    (sendOwed s i).phase = s.phase ∧ (sendOwed s i).straps = s.straps ∧ (sendOwed s i).enables = s.enables ∧
    (sendOwed s i).attention = s.attention ∧ (sendOwed s i).requests = s.requests ∧ (sendOwed s i).lot = s.lot ∧
    (sendOwed s i).derivation = s.derivation ∧ (sendOwed s i).touchdown = s.touchdown ∧
    (sendOwed s i).ports = s.ports ∧ (sendOwed s i).rail = s.rail ∧ (sendOwed s i).reading = s.reading ∧
    (sendOwed s i).mirror = s.mirror ∧ (sendOwed s i).contactLine = s.contactLine ∧ (sendOwed s i).pending = s.pending := by
  unfold sendOwed
  try dsimp only
  repeat' split
  all_goals simp

/-- What `dispose` leaves: everything but ram, channels. -/
@[simp] theorem dispose_keeps (s : State) (i : Site) :
    (dispose s i).phase = s.phase ∧ (dispose s i).straps = s.straps ∧ (dispose s i).enables = s.enables ∧
    (dispose s i).attention = s.attention ∧ (dispose s i).requests = s.requests ∧ (dispose s i).lot = s.lot ∧
    (dispose s i).derivation = s.derivation ∧ (dispose s i).touchdown = s.touchdown ∧ (dispose s i).ports = s.ports ∧
    (dispose s i).rail = s.rail ∧ (dispose s i).reading = s.reading ∧ (dispose s i).mirror = s.mirror ∧
    (dispose s i).contactLine = s.contactLine ∧ (dispose s i).pending = s.pending := by
  unfold dispose
  try dsimp only
  repeat' split
  all_goals simp

/-- What `interruptByLink` leaves: everything but ram, channels. -/
@[simp] theorem interruptByLink_keeps (s : State) (i : Site) :
    (interruptByLink s i).phase = s.phase ∧ (interruptByLink s i).straps = s.straps ∧
    (interruptByLink s i).enables = s.enables ∧ (interruptByLink s i).attention = s.attention ∧
    (interruptByLink s i).requests = s.requests ∧ (interruptByLink s i).lot = s.lot ∧
    (interruptByLink s i).derivation = s.derivation ∧ (interruptByLink s i).touchdown = s.touchdown ∧
    (interruptByLink s i).ports = s.ports ∧ (interruptByLink s i).rail = s.rail ∧
    (interruptByLink s i).reading = s.reading ∧ (interruptByLink s i).mirror = s.mirror ∧
    (interruptByLink s i).contactLine = s.contactLine ∧ (interruptByLink s i).pending = s.pending := by
  unfold interruptByLink
  try dsimp only
  all_goals simp

/-- What `channelLinkFailure` leaves: everything but ram, channels. -/
@[simp] theorem channelLinkFailure_keeps (s : State) (i : Site) :
    (channelLinkFailure s i).phase = s.phase ∧ (channelLinkFailure s i).straps = s.straps ∧
    (channelLinkFailure s i).enables = s.enables ∧ (channelLinkFailure s i).attention = s.attention ∧
    (channelLinkFailure s i).requests = s.requests ∧ (channelLinkFailure s i).lot = s.lot ∧
    (channelLinkFailure s i).derivation = s.derivation ∧ (channelLinkFailure s i).touchdown = s.touchdown ∧
    (channelLinkFailure s i).ports = s.ports ∧ (channelLinkFailure s i).rail = s.rail ∧
    (channelLinkFailure s i).reading = s.reading ∧ (channelLinkFailure s i).mirror = s.mirror ∧
    (channelLinkFailure s i).contactLine = s.contactLine ∧ (channelLinkFailure s i).pending = s.pending := by
  unfold channelLinkFailure
  try dsimp only
  repeat' split
  all_goals simp

/-- What `unexpectedStatus` leaves: everything but ram, channels. -/
@[simp] theorem unexpectedStatus_keeps (s : State) (i : Site) :
    (unexpectedStatus s i).phase = s.phase ∧ (unexpectedStatus s i).straps = s.straps ∧
    (unexpectedStatus s i).enables = s.enables ∧ (unexpectedStatus s i).attention = s.attention ∧
    (unexpectedStatus s i).requests = s.requests ∧ (unexpectedStatus s i).lot = s.lot ∧
    (unexpectedStatus s i).derivation = s.derivation ∧ (unexpectedStatus s i).touchdown = s.touchdown ∧
    (unexpectedStatus s i).ports = s.ports ∧ (unexpectedStatus s i).rail = s.rail ∧
    (unexpectedStatus s i).reading = s.reading ∧ (unexpectedStatus s i).mirror = s.mirror ∧
    (unexpectedStatus s i).contactLine = s.contactLine ∧ (unexpectedStatus s i).pending = s.pending := by
  unfold unexpectedStatus
  try dsimp only
  repeat' split
  all_goals simp

/-- What `lotCheck` leaves: everything but ram, channels. -/
@[simp] theorem lotCheck_keeps (s : State) (i : Site) :
    (lotCheck s i).phase = s.phase ∧ (lotCheck s i).straps = s.straps ∧
    (lotCheck s i).enables = s.enables ∧ (lotCheck s i).attention = s.attention ∧
    (lotCheck s i).requests = s.requests ∧ (lotCheck s i).lot = s.lot ∧
    (lotCheck s i).derivation = s.derivation ∧ (lotCheck s i).touchdown = s.touchdown ∧
    (lotCheck s i).ports = s.ports ∧ (lotCheck s i).rail = s.rail ∧
    (lotCheck s i).reading = s.reading ∧ (lotCheck s i).mirror = s.mirror ∧
    (lotCheck s i).contactLine = s.contactLine ∧ (lotCheck s i).pending = s.pending := by
  unfold lotCheck
  try dsimp only
  repeat' split
  all_goals simp

/-- What `identResponse` leaves: everything but ram, channels. -/
@[simp] theorem identResponse_keeps (s : State) (i : Site) (d : List Byte) :
    (identResponse s i d).phase = s.phase ∧ (identResponse s i d).straps = s.straps ∧
    (identResponse s i d).enables = s.enables ∧ (identResponse s i d).attention = s.attention ∧
    (identResponse s i d).requests = s.requests ∧ (identResponse s i d).lot = s.lot ∧
    (identResponse s i d).derivation = s.derivation ∧ (identResponse s i d).touchdown = s.touchdown ∧
    (identResponse s i d).ports = s.ports ∧ (identResponse s i d).rail = s.rail ∧
    (identResponse s i d).reading = s.reading ∧ (identResponse s i d).mirror = s.mirror ∧
    (identResponse s i d).contactLine = s.contactLine ∧ (identResponse s i d).pending = s.pending := by
  unfold identResponse
  try dsimp only
  repeat' split
  all_goals simp

/-- What `onlyReadback` leaves: everything but ram, channels. -/
@[simp] theorem onlyReadback_keeps (s : State) (i : Site) (x : Image) :
    (onlyReadback s i x).phase = s.phase ∧ (onlyReadback s i x).straps = s.straps ∧
    (onlyReadback s i x).enables = s.enables ∧ (onlyReadback s i x).attention = s.attention ∧
    (onlyReadback s i x).requests = s.requests ∧ (onlyReadback s i x).lot = s.lot ∧
    (onlyReadback s i x).derivation = s.derivation ∧ (onlyReadback s i x).touchdown = s.touchdown ∧
    (onlyReadback s i x).ports = s.ports ∧ (onlyReadback s i x).rail = s.rail ∧
    (onlyReadback s i x).reading = s.reading ∧ (onlyReadback s i x).mirror = s.mirror ∧
    (onlyReadback s i x).contactLine = s.contactLine ∧ (onlyReadback s i x).pending = s.pending := by
  unfold onlyReadback
  try dsimp only
  repeat' split
  all_goals simp

/-- What `blankReadback` leaves: everything but channels. -/
@[simp] theorem blankReadback_keeps (s : State) (i : Site) (x : Image) :
    (blankReadback s i x).ram = s.ram ∧ (blankReadback s i x).phase = s.phase ∧
    (blankReadback s i x).straps = s.straps ∧ (blankReadback s i x).enables = s.enables ∧
    (blankReadback s i x).attention = s.attention ∧ (blankReadback s i x).requests = s.requests ∧
    (blankReadback s i x).lot = s.lot ∧ (blankReadback s i x).derivation = s.derivation ∧
    (blankReadback s i x).touchdown = s.touchdown ∧ (blankReadback s i x).ports = s.ports ∧
    (blankReadback s i x).rail = s.rail ∧ (blankReadback s i x).reading = s.reading ∧
    (blankReadback s i x).mirror = s.mirror ∧ (blankReadback s i x).contactLine = s.contactLine ∧
    (blankReadback s i x).pending = s.pending := by
  unfold blankReadback
  try dsimp only
  repeat' split
  all_goals simp

/-- What `notListed` leaves: everything but ram, channels. -/
@[simp] theorem notListed_keeps (s : State) (i : Site) :
    (notListed s i).phase = s.phase ∧ (notListed s i).straps = s.straps ∧ (notListed s i).enables = s.enables ∧
    (notListed s i).attention = s.attention ∧ (notListed s i).requests = s.requests ∧ (notListed s i).lot = s.lot ∧
    (notListed s i).derivation = s.derivation ∧ (notListed s i).touchdown = s.touchdown ∧
    (notListed s i).ports = s.ports ∧ (notListed s i).rail = s.rail ∧ (notListed s i).reading = s.reading ∧
    (notListed s i).mirror = s.mirror ∧ (notListed s i).contactLine = s.contactLine ∧
    (notListed s i).pending = s.pending := by
  unfold notListed
  try dsimp only
  repeat' split
  all_goals simp

/-- What `evalReadback` leaves: everything but ram, channels. -/
@[simp] theorem evalReadback_keeps (s : State) (i : Site) (x : Image) :
    (evalReadback s i x).phase = s.phase ∧ (evalReadback s i x).straps = s.straps ∧
    (evalReadback s i x).enables = s.enables ∧ (evalReadback s i x).attention = s.attention ∧
    (evalReadback s i x).requests = s.requests ∧ (evalReadback s i x).lot = s.lot ∧
    (evalReadback s i x).derivation = s.derivation ∧ (evalReadback s i x).touchdown = s.touchdown ∧
    (evalReadback s i x).ports = s.ports ∧ (evalReadback s i x).rail = s.rail ∧
    (evalReadback s i x).reading = s.reading ∧ (evalReadback s i x).mirror = s.mirror ∧
    (evalReadback s i x).contactLine = s.contactLine ∧ (evalReadback s i x).pending = s.pending := by
  unfold evalReadback
  try dsimp only
  repeat' split
  all_goals simp

/-- What `nextPosition` leaves: everything but channels. -/
@[simp] theorem nextPosition_keeps (s : State) (i : Site) :
    (nextPosition s i).ram = s.ram ∧ (nextPosition s i).phase = s.phase ∧ (nextPosition s i).straps = s.straps ∧
    (nextPosition s i).enables = s.enables ∧ (nextPosition s i).attention = s.attention ∧
    (nextPosition s i).requests = s.requests ∧ (nextPosition s i).lot = s.lot ∧
    (nextPosition s i).derivation = s.derivation ∧ (nextPosition s i).touchdown = s.touchdown ∧
    (nextPosition s i).ports = s.ports ∧ (nextPosition s i).rail = s.rail ∧ (nextPosition s i).reading = s.reading ∧
    (nextPosition s i).mirror = s.mirror ∧ (nextPosition s i).contactLine = s.contactLine ∧
    (nextPosition s i).pending = s.pending := by
  unfold nextPosition
  try dsimp only
  all_goals simp

/-- What `takeKey` leaves: everything but channels. -/
@[simp] theorem takeKey_keeps (s : State) (i : Site) (k : Key) :
    (takeKey s i k).ram = s.ram ∧ (takeKey s i k).phase = s.phase ∧ (takeKey s i k).straps = s.straps ∧
    (takeKey s i k).enables = s.enables ∧ (takeKey s i k).attention = s.attention ∧
    (takeKey s i k).requests = s.requests ∧ (takeKey s i k).lot = s.lot ∧ (takeKey s i k).derivation = s.derivation ∧
    (takeKey s i k).touchdown = s.touchdown ∧ (takeKey s i k).ports = s.ports ∧ (takeKey s i k).rail = s.rail ∧
    (takeKey s i k).reading = s.reading ∧ (takeKey s i k).mirror = s.mirror ∧
    (takeKey s i k).contactLine = s.contactLine ∧ (takeKey s i k).pending = s.pending := by
  unfold takeKey
  try dsimp only
  repeat' split
  all_goals simp

/-- What `armResponse` leaves: everything but ram, channels. -/
@[simp] theorem armResponse_keeps (s : State) (i : Site) (b : Byte) :
    (armResponse s i b).phase = s.phase ∧ (armResponse s i b).straps = s.straps ∧
    (armResponse s i b).enables = s.enables ∧ (armResponse s i b).attention = s.attention ∧
    (armResponse s i b).requests = s.requests ∧ (armResponse s i b).lot = s.lot ∧
    (armResponse s i b).derivation = s.derivation ∧ (armResponse s i b).touchdown = s.touchdown ∧
    (armResponse s i b).ports = s.ports ∧ (armResponse s i b).rail = s.rail ∧
    (armResponse s i b).reading = s.reading ∧ (armResponse s i b).mirror = s.mirror ∧
    (armResponse s i b).contactLine = s.contactLine ∧ (armResponse s i b).pending = s.pending := by
  unfold armResponse
  try dsimp only
  repeat' split
  all_goals simp

/-- What `notBlown` leaves: everything but channels. -/
@[simp] theorem notBlown_keeps (s : State) (i : Site) (p : Nat) :
    (notBlown s i p).ram = s.ram ∧ (notBlown s i p).phase = s.phase ∧ (notBlown s i p).straps = s.straps ∧
    (notBlown s i p).enables = s.enables ∧ (notBlown s i p).attention = s.attention ∧
    (notBlown s i p).requests = s.requests ∧ (notBlown s i p).lot = s.lot ∧
    (notBlown s i p).derivation = s.derivation ∧ (notBlown s i p).touchdown = s.touchdown ∧
    (notBlown s i p).ports = s.ports ∧ (notBlown s i p).rail = s.rail ∧ (notBlown s i p).reading = s.reading ∧
    (notBlown s i p).mirror = s.mirror ∧ (notBlown s i p).contactLine = s.contactLine ∧
    (notBlown s i p).pending = s.pending := by
  unfold notBlown
  try dsimp only
  repeat' split
  all_goals simp

/-- What `verifyReadback` leaves: everything but channels. -/
@[simp] theorem verifyReadback_keeps (s : State) (i : Site) (w : Half) :
    (verifyReadback s i w).ram = s.ram ∧ (verifyReadback s i w).phase = s.phase ∧
    (verifyReadback s i w).straps = s.straps ∧ (verifyReadback s i w).enables = s.enables ∧
    (verifyReadback s i w).attention = s.attention ∧ (verifyReadback s i w).requests = s.requests ∧
    (verifyReadback s i w).lot = s.lot ∧ (verifyReadback s i w).derivation = s.derivation ∧
    (verifyReadback s i w).touchdown = s.touchdown ∧ (verifyReadback s i w).ports = s.ports ∧
    (verifyReadback s i w).rail = s.rail ∧ (verifyReadback s i w).reading = s.reading ∧
    (verifyReadback s i w).mirror = s.mirror ∧ (verifyReadback s i w).contactLine = s.contactLine ∧
    (verifyReadback s i w).pending = s.pending := by
  unfold verifyReadback
  try dsimp only
  repeat' split
  all_goals simp

/-- What `lowReadback` leaves: everything but channels. -/
@[simp] theorem lowReadback_keeps (s : State) (i : Site) (x : Image) :
    (lowReadback s i x).ram = s.ram ∧ (lowReadback s i x).phase = s.phase ∧ (lowReadback s i x).straps = s.straps ∧
    (lowReadback s i x).enables = s.enables ∧ (lowReadback s i x).attention = s.attention ∧
    (lowReadback s i x).requests = s.requests ∧ (lowReadback s i x).lot = s.lot ∧
    (lowReadback s i x).derivation = s.derivation ∧ (lowReadback s i x).touchdown = s.touchdown ∧
    (lowReadback s i x).ports = s.ports ∧ (lowReadback s i x).rail = s.rail ∧
    (lowReadback s i x).reading = s.reading ∧ (lowReadback s i x).mirror = s.mirror ∧
    (lowReadback s i x).contactLine = s.contactLine ∧ (lowReadback s i x).pending = s.pending := by
  unfold lowReadback
  try dsimp only
  repeat' split
  all_goals simp

/-- What `highReadback` leaves: everything but channels. -/
@[simp] theorem highReadback_keeps (s : State) (i : Site) (x : Image) :
    (highReadback s i x).ram = s.ram ∧ (highReadback s i x).phase = s.phase ∧
    (highReadback s i x).straps = s.straps ∧ (highReadback s i x).enables = s.enables ∧
    (highReadback s i x).attention = s.attention ∧ (highReadback s i x).requests = s.requests ∧
    (highReadback s i x).lot = s.lot ∧ (highReadback s i x).derivation = s.derivation ∧
    (highReadback s i x).touchdown = s.touchdown ∧ (highReadback s i x).ports = s.ports ∧
    (highReadback s i x).rail = s.rail ∧ (highReadback s i x).reading = s.reading ∧
    (highReadback s i x).mirror = s.mirror ∧ (highReadback s i x).contactLine = s.contactLine ∧
    (highReadback s i x).pending = s.pending := by
  unfold highReadback
  try dsimp only
  repeat' split
  all_goals simp

/-- What `okResponse` leaves: everything but ram, channels. -/
@[simp] theorem okResponse_keeps (s : State) (i : Site) (t : LinkTask) (d : List Byte) :
    (okResponse s i t d).phase = s.phase ∧ (okResponse s i t d).straps = s.straps ∧
    (okResponse s i t d).enables = s.enables ∧ (okResponse s i t d).attention = s.attention ∧
    (okResponse s i t d).requests = s.requests ∧ (okResponse s i t d).lot = s.lot ∧
    (okResponse s i t d).derivation = s.derivation ∧ (okResponse s i t d).touchdown = s.touchdown ∧
    (okResponse s i t d).ports = s.ports ∧ (okResponse s i t d).rail = s.rail ∧
    (okResponse s i t d).reading = s.reading ∧ (okResponse s i t d).mirror = s.mirror ∧
    (okResponse s i t d).contactLine = s.contactLine ∧ (okResponse s i t d).pending = s.pending := by
  unfold okResponse
  try dsimp only
  repeat' split
  all_goals simp

/-- What `channelResponse` leaves: everything but ram, channels. -/
@[simp] theorem channelResponse_keeps (s : State) (i : Site) (b : Byte) (d : List Byte) :
    (channelResponse s i b d).phase = s.phase ∧ (channelResponse s i b d).straps = s.straps ∧
    (channelResponse s i b d).enables = s.enables ∧ (channelResponse s i b d).attention = s.attention ∧
    (channelResponse s i b d).requests = s.requests ∧ (channelResponse s i b d).lot = s.lot ∧
    (channelResponse s i b d).derivation = s.derivation ∧ (channelResponse s i b d).touchdown = s.touchdown ∧
    (channelResponse s i b d).ports = s.ports ∧ (channelResponse s i b d).rail = s.rail ∧
    (channelResponse s i b d).reading = s.reading ∧ (channelResponse s i b d).mirror = s.mirror ∧
    (channelResponse s i b d).contactLine = s.contactLine ∧ (channelResponse s i b d).pending = s.pending := by
  unfold channelResponse
  try dsimp only
  repeat' split
  all_goals simp

/-- What `takeReport` leaves: everything but ram, channels, lot. -/
@[simp] theorem takeReport_keeps (s : State) (i : Site) (r : Report) :
    (takeReport s i r).phase = s.phase ∧ (takeReport s i r).straps = s.straps ∧
    (takeReport s i r).enables = s.enables ∧ (takeReport s i r).attention = s.attention ∧
    (takeReport s i r).requests = s.requests ∧ (takeReport s i r).derivation = s.derivation ∧
    (takeReport s i r).touchdown = s.touchdown ∧ (takeReport s i r).ports = s.ports ∧
    (takeReport s i r).rail = s.rail ∧ (takeReport s i r).reading = s.reading ∧
    (takeReport s i r).mirror = s.mirror ∧ (takeReport s i r).contactLine = s.contactLine ∧
    (takeReport s i r).pending = s.pending := by
  unfold takeReport
  try dsimp only
  repeat' split
  all_goals simp

/-! ## Probe link ports -/

/-- What `sendFrame` leaves: everything but ports. -/
@[simp] theorem sendFrame_keeps (s : State) (i : Site) (r : LinkRequest) (p : Bool) :
    (sendFrame s i r p).ram = s.ram ∧ (sendFrame s i r p).phase = s.phase ∧ (sendFrame s i r p).straps = s.straps ∧
    (sendFrame s i r p).enables = s.enables ∧ (sendFrame s i r p).attention = s.attention ∧
    (sendFrame s i r p).requests = s.requests ∧ (sendFrame s i r p).lot = s.lot ∧
    (sendFrame s i r p).derivation = s.derivation ∧ (sendFrame s i r p).touchdown = s.touchdown ∧
    (sendFrame s i r p).channels = s.channels ∧ (sendFrame s i r p).rail = s.rail ∧
    (sendFrame s i r p).reading = s.reading ∧ (sendFrame s i r p).mirror = s.mirror ∧
    (sendFrame s i r p).contactLine = s.contactLine ∧ (sendFrame s i r p).pending = s.pending := by
  unfold sendFrame
  try dsimp only
  all_goals simp

/-- What `takeExchange` leaves: everything but channels, ports. -/
@[simp] theorem takeExchange_keeps (s : State) (i : Site) :
    (takeExchange s i).ram = s.ram ∧ (takeExchange s i).phase = s.phase ∧ (takeExchange s i).straps = s.straps ∧
    (takeExchange s i).enables = s.enables ∧ (takeExchange s i).attention = s.attention ∧
    (takeExchange s i).requests = s.requests ∧ (takeExchange s i).lot = s.lot ∧
    (takeExchange s i).derivation = s.derivation ∧ (takeExchange s i).touchdown = s.touchdown ∧
    (takeExchange s i).rail = s.rail ∧
    (takeExchange s i).reading = s.reading ∧ (takeExchange s i).mirror = s.mirror ∧
    (takeExchange s i).contactLine = s.contactLine ∧ (takeExchange s i).pending = s.pending := by
  unfold takeExchange
  try dsimp only
  repeat' split
  all_goals simp

/-- What `repeatFrame` leaves: everything but ports. -/
@[simp] theorem repeatFrame_keeps (s : State) (i : Site) :
    (repeatFrame s i).ram = s.ram ∧ (repeatFrame s i).phase = s.phase ∧ (repeatFrame s i).straps = s.straps ∧
    (repeatFrame s i).enables = s.enables ∧ (repeatFrame s i).attention = s.attention ∧
    (repeatFrame s i).requests = s.requests ∧ (repeatFrame s i).lot = s.lot ∧
    (repeatFrame s i).derivation = s.derivation ∧ (repeatFrame s i).touchdown = s.touchdown ∧
    (repeatFrame s i).channels = s.channels ∧ (repeatFrame s i).rail = s.rail ∧
    (repeatFrame s i).reading = s.reading ∧ (repeatFrame s i).mirror = s.mirror ∧
    (repeatFrame s i).contactLine = s.contactLine ∧ (repeatFrame s i).pending = s.pending := by
  unfold repeatFrame
  try dsimp only
  repeat' split
  all_goals simp

/-- What `resendAfterDrain` leaves: everything but ports. -/
@[simp] theorem resendAfterDrain_keeps (s : State) (i : Site) :
    (resendAfterDrain s i).ram = s.ram ∧ (resendAfterDrain s i).phase = s.phase ∧
    (resendAfterDrain s i).straps = s.straps ∧ (resendAfterDrain s i).enables = s.enables ∧
    (resendAfterDrain s i).attention = s.attention ∧ (resendAfterDrain s i).requests = s.requests ∧
    (resendAfterDrain s i).lot = s.lot ∧ (resendAfterDrain s i).derivation = s.derivation ∧
    (resendAfterDrain s i).touchdown = s.touchdown ∧ (resendAfterDrain s i).channels = s.channels ∧
    (resendAfterDrain s i).rail = s.rail ∧ (resendAfterDrain s i).reading = s.reading ∧
    (resendAfterDrain s i).mirror = s.mirror ∧ (resendAfterDrain s i).contactLine = s.contactLine ∧
    (resendAfterDrain s i).pending = s.pending := by
  unfold resendAfterDrain
  try dsimp only
  repeat' split
  all_goals simp

/-- What `abandon` leaves: everything but ports. -/
@[simp] theorem abandon_keeps (s : State) (i : Site) :
    (abandon s i).ram = s.ram ∧ (abandon s i).phase = s.phase ∧ (abandon s i).straps = s.straps ∧
    (abandon s i).enables = s.enables ∧ (abandon s i).attention = s.attention ∧ (abandon s i).requests = s.requests ∧
    (abandon s i).lot = s.lot ∧ (abandon s i).derivation = s.derivation ∧ (abandon s i).touchdown = s.touchdown ∧
    (abandon s i).channels = s.channels ∧ (abandon s i).rail = s.rail ∧ (abandon s i).reading = s.reading ∧
    (abandon s i).mirror = s.mirror ∧ (abandon s i).contactLine = s.contactLine ∧ (abandon s i).pending = s.pending := by
  unfold abandon
  try dsimp only
  all_goals simp

/-- What `linkFailure` leaves: everything but ram, channels, ports. -/
@[simp] theorem linkFailure_keeps (s : State) (i : Site) :
    (linkFailure s i).phase = s.phase ∧ (linkFailure s i).straps = s.straps ∧ (linkFailure s i).enables = s.enables ∧
    (linkFailure s i).attention = s.attention ∧ (linkFailure s i).requests = s.requests ∧
    (linkFailure s i).lot = s.lot ∧ (linkFailure s i).derivation = s.derivation ∧
    (linkFailure s i).touchdown = s.touchdown ∧ (linkFailure s i).rail = s.rail ∧
    (linkFailure s i).reading = s.reading ∧ (linkFailure s i).mirror = s.mirror ∧
    (linkFailure s i).contactLine = s.contactLine ∧ (linkFailure s i).pending = s.pending := by
  unfold linkFailure
  try dsimp only
  all_goals simp

/-- What `failSending` leaves: everything but ram, channels, ports. -/
@[simp] theorem failSending_keeps (s : State) (i : Site) (b : Bool) :
    (failSending s i b).phase = s.phase ∧ (failSending s i b).straps = s.straps ∧
    (failSending s i b).enables = s.enables ∧ (failSending s i b).attention = s.attention ∧
    (failSending s i b).requests = s.requests ∧ (failSending s i b).lot = s.lot ∧
    (failSending s i b).derivation = s.derivation ∧ (failSending s i b).touchdown = s.touchdown ∧
    (failSending s i b).rail = s.rail ∧ (failSending s i b).reading = s.reading ∧
    (failSending s i b).mirror = s.mirror ∧ (failSending s i b).contactLine = s.contactLine ∧
    (failSending s i b).pending = s.pending := by
  unfold failSending
  try dsimp only
  repeat' split
  all_goals simp

/-- What `handOn` leaves: everything but ram, channels, ports. -/
@[simp] theorem handOn_keeps (s : State) (i : Site) (b : Byte) (d : List Byte) :
    (handOn s i b d).phase = s.phase ∧ (handOn s i b d).straps = s.straps ∧ (handOn s i b d).enables = s.enables ∧
    (handOn s i b d).attention = s.attention ∧ (handOn s i b d).requests = s.requests ∧
    (handOn s i b d).lot = s.lot ∧ (handOn s i b d).derivation = s.derivation ∧
    (handOn s i b d).touchdown = s.touchdown ∧ (handOn s i b d).rail = s.rail ∧
    (handOn s i b d).reading = s.reading ∧ (handOn s i b d).mirror = s.mirror ∧
    (handOn s i b d).contactLine = s.contactLine ∧ (handOn s i b d).pending = s.pending := by
  unfold handOn
  try dsimp only
  all_goals simp

/-- What `goodResponse` leaves: everything but ram, channels, ports. -/
@[simp] theorem goodResponse_keeps (s : State) (i : Site) (r : LinkRequest) (b : Byte) (d : List Byte) :
    (goodResponse s i r b d).phase = s.phase ∧ (goodResponse s i r b d).straps = s.straps ∧
    (goodResponse s i r b d).enables = s.enables ∧ (goodResponse s i r b d).attention = s.attention ∧
    (goodResponse s i r b d).requests = s.requests ∧ (goodResponse s i r b d).lot = s.lot ∧
    (goodResponse s i r b d).derivation = s.derivation ∧ (goodResponse s i r b d).touchdown = s.touchdown ∧
    (goodResponse s i r b d).rail = s.rail ∧ (goodResponse s i r b d).reading = s.reading ∧
    (goodResponse s i r b d).mirror = s.mirror ∧ (goodResponse s i r b d).contactLine = s.contactLine ∧
    (goodResponse s i r b d).pending = s.pending := by
  unfold goodResponse
  try dsimp only
  repeat' split
  all_goals simp

/-- What `testResponse` leaves: everything but ram, channels, ports. -/
@[simp] theorem testResponse_keeps (s : State) (i : Site) (b : Byte) :
    (testResponse s i b).phase = s.phase ∧ (testResponse s i b).straps = s.straps ∧
    (testResponse s i b).enables = s.enables ∧ (testResponse s i b).attention = s.attention ∧
    (testResponse s i b).requests = s.requests ∧ (testResponse s i b).lot = s.lot ∧
    (testResponse s i b).derivation = s.derivation ∧ (testResponse s i b).touchdown = s.touchdown ∧
    (testResponse s i b).rail = s.rail ∧ (testResponse s i b).reading = s.reading ∧
    (testResponse s i b).mirror = s.mirror ∧ (testResponse s i b).contactLine = s.contactLine ∧
    (testResponse s i b).pending = s.pending := by
  unfold testResponse
  try dsimp only
  repeat' split
  all_goals simp

/-- What `judgeResponse` leaves: everything but ram, channels, ports. -/
@[simp] theorem judgeResponse_keeps (s : State) (i : Site) (r : LinkRequest) (d : List Byte) :
    (judgeResponse s i r d).phase = s.phase ∧ (judgeResponse s i r d).straps = s.straps ∧
    (judgeResponse s i r d).enables = s.enables ∧ (judgeResponse s i r d).attention = s.attention ∧
    (judgeResponse s i r d).requests = s.requests ∧ (judgeResponse s i r d).lot = s.lot ∧
    (judgeResponse s i r d).derivation = s.derivation ∧ (judgeResponse s i r d).touchdown = s.touchdown ∧
    (judgeResponse s i r d).rail = s.rail ∧ (judgeResponse s i r d).reading = s.reading ∧
    (judgeResponse s i r d).mirror = s.mirror ∧ (judgeResponse s i r d).contactLine = s.contactLine ∧
    (judgeResponse s i r d).pending = s.pending := by
  unfold judgeResponse
  try dsimp only
  repeat' split
  all_goals simp

/-! ## Rail controller -/

/-- What `grant` leaves: everything but channels, rail. -/
@[simp] theorem grant_keeps (s : State) (i : Site) (n : Nat) :
    (grant s i n).ram = s.ram ∧ (grant s i n).phase = s.phase ∧ (grant s i n).straps = s.straps ∧
    (grant s i n).enables = s.enables ∧ (grant s i n).attention = s.attention ∧ (grant s i n).requests = s.requests ∧
    (grant s i n).lot = s.lot ∧ (grant s i n).derivation = s.derivation ∧ (grant s i n).touchdown = s.touchdown ∧
    (grant s i n).ports = s.ports ∧ (grant s i n).reading = s.reading ∧ (grant s i n).mirror = s.mirror ∧
    (grant s i n).contactLine = s.contactLine ∧ (grant s i n).pending = s.pending := by
  unfold grant
  try dsimp only
  all_goals simp

/-- What `scanSite` leaves: everything but channels, rail. -/
@[simp] theorem scanSite_keeps (s : State) (i : Site) :
    (scanSite s i).ram = s.ram ∧ (scanSite s i).phase = s.phase ∧ (scanSite s i).straps = s.straps ∧
    (scanSite s i).enables = s.enables ∧ (scanSite s i).attention = s.attention ∧
    (scanSite s i).requests = s.requests ∧ (scanSite s i).lot = s.lot ∧ (scanSite s i).derivation = s.derivation ∧
    (scanSite s i).touchdown = s.touchdown ∧ (scanSite s i).ports = s.ports ∧ (scanSite s i).reading = s.reading ∧
    (scanSite s i).mirror = s.mirror ∧ (scanSite s i).contactLine = s.contactLine ∧ (scanSite s i).pending = s.pending := by
  unfold scanSite
  try dsimp only
  repeat' split
  all_goals simp

/-- What `scan` leaves: everything but channels, rail. -/
@[simp] theorem scan_keeps (s : State) :
    (scan s).ram = s.ram ∧ (scan s).phase = s.phase ∧ (scan s).straps = s.straps ∧ (scan s).enables = s.enables ∧
    (scan s).attention = s.attention ∧ (scan s).requests = s.requests ∧ (scan s).lot = s.lot ∧
    (scan s).derivation = s.derivation ∧ (scan s).touchdown = s.touchdown ∧ (scan s).ports = s.ports ∧
    (scan s).reading = s.reading ∧ (scan s).mirror = s.mirror ∧ (scan s).contactLine = s.contactLine ∧
    (scan s).pending = s.pending := by
  refine ⟨forSites_keeps (fun s => s.ram) (by simp) _ _,
    forSites_keeps (fun s => s.phase) (by simp) _ _,
    forSites_keeps (fun s => s.straps) (by simp) _ _,
    forSites_keeps (fun s => s.enables) (by simp) _ _,
    forSites_keeps (fun s => s.attention) (by simp) _ _,
    forSites_keeps (fun s => s.requests) (by simp) _ _,
    forSites_keeps (fun s => s.lot) (by simp) _ _,
    forSites_keeps (fun s => s.derivation) (by simp) _ _,
    forSites_keeps (fun s => s.touchdown) (by simp) _ _,
    forSites_keeps (fun s => s.ports) (by simp) _ _,
    forSites_keeps (fun s => s.reading) (by simp) _ _,
    forSites_keeps (fun s => s.mirror) (by simp) _ _,
    forSites_keeps (fun s => s.contactLine) (by simp) _ _,
    forSites_keeps (fun s => s.pending) (by simp) _ _⟩

/-- What `stopPulse` leaves: everything but channels, rail, mirror. -/
@[simp] theorem stopPulse_keeps (s : State) (i : Site) :
    (stopPulse s i).ram = s.ram ∧ (stopPulse s i).phase = s.phase ∧ (stopPulse s i).straps = s.straps ∧
    (stopPulse s i).enables = s.enables ∧ (stopPulse s i).attention = s.attention ∧
    (stopPulse s i).requests = s.requests ∧ (stopPulse s i).lot = s.lot ∧ (stopPulse s i).derivation = s.derivation ∧
    (stopPulse s i).touchdown = s.touchdown ∧ (stopPulse s i).ports = s.ports ∧ (stopPulse s i).reading = s.reading ∧
    (stopPulse s i).contactLine = s.contactLine ∧ (stopPulse s i).pending = s.pending := by
  unfold stopPulse
  try dsimp only
  all_goals simp

/-- What `decideHold` leaves: everything but channels, rail, attention. -/
@[simp] theorem decideHold_keeps (s : State) :
    (decideHold s).ram = s.ram ∧ (decideHold s).phase = s.phase ∧ (decideHold s).straps = s.straps ∧
    (decideHold s).enables = s.enables ∧ (decideHold s).requests = s.requests ∧ (decideHold s).lot = s.lot ∧
    (decideHold s).derivation = s.derivation ∧ (decideHold s).touchdown = s.touchdown ∧
    (decideHold s).ports = s.ports ∧ (decideHold s).reading = s.reading ∧ (decideHold s).mirror = s.mirror ∧
    (decideHold s).contactLine = s.contactLine ∧ (decideHold s).pending = s.pending := by
  unfold decideHold
  try dsimp only
  repeat' split
  all_goals simp

/-! ## Status mirror writer -/

/-- What `beginMirrorWrite` leaves: everything but ram, mirror. -/
@[simp] theorem beginMirrorWrite_keeps (s : State) :
    (beginMirrorWrite s).phase = s.phase ∧ (beginMirrorWrite s).straps = s.straps ∧
    (beginMirrorWrite s).enables = s.enables ∧ (beginMirrorWrite s).attention = s.attention ∧
    (beginMirrorWrite s).requests = s.requests ∧ (beginMirrorWrite s).lot = s.lot ∧
    (beginMirrorWrite s).derivation = s.derivation ∧ (beginMirrorWrite s).touchdown = s.touchdown ∧
    (beginMirrorWrite s).channels = s.channels ∧ (beginMirrorWrite s).ports = s.ports ∧
    (beginMirrorWrite s).rail = s.rail ∧ (beginMirrorWrite s).reading = s.reading ∧
    (beginMirrorWrite s).contactLine = s.contactLine ∧ (beginMirrorWrite s).pending = s.pending := by
  unfold beginMirrorWrite
  try dsimp only
  repeat' split
  all_goals simp

/-- What `triggerMirror` leaves: everything but ram, mirror. -/
@[simp] theorem triggerMirror_keeps (s : State) :
    (triggerMirror s).phase = s.phase ∧ (triggerMirror s).straps = s.straps ∧ (triggerMirror s).enables = s.enables ∧
    (triggerMirror s).attention = s.attention ∧ (triggerMirror s).requests = s.requests ∧
    (triggerMirror s).lot = s.lot ∧ (triggerMirror s).derivation = s.derivation ∧
    (triggerMirror s).touchdown = s.touchdown ∧ (triggerMirror s).channels = s.channels ∧
    (triggerMirror s).ports = s.ports ∧ (triggerMirror s).rail = s.rail ∧ (triggerMirror s).reading = s.reading ∧
    (triggerMirror s).contactLine = s.contactLine ∧ (triggerMirror s).pending = s.pending := by
  unfold triggerMirror
  try dsimp only
  repeat' split
  all_goals simp

/-- What `endMirrorWrite` leaves: everything but ram, mirror. -/
@[simp] theorem endMirrorWrite_keeps (s : State) (e : BitVec 35) :
    (endMirrorWrite s e).phase = s.phase ∧ (endMirrorWrite s e).straps = s.straps ∧
    (endMirrorWrite s e).enables = s.enables ∧ (endMirrorWrite s e).attention = s.attention ∧
    (endMirrorWrite s e).requests = s.requests ∧ (endMirrorWrite s e).lot = s.lot ∧
    (endMirrorWrite s e).derivation = s.derivation ∧ (endMirrorWrite s e).touchdown = s.touchdown ∧
    (endMirrorWrite s e).channels = s.channels ∧ (endMirrorWrite s e).ports = s.ports ∧
    (endMirrorWrite s e).rail = s.rail ∧ (endMirrorWrite s e).reading = s.reading ∧
    (endMirrorWrite s e).contactLine = s.contactLine ∧ (endMirrorWrite s e).pending = s.pending := by
  unfold endMirrorWrite
  try dsimp only
  all_goals simp

/-! ## Requests -/

/-- What `accept` leaves: everything but requests. -/
@[simp] theorem accept_keeps (s : State) :
    (accept s).ram = s.ram ∧ (accept s).phase = s.phase ∧ (accept s).straps = s.straps ∧
    (accept s).enables = s.enables ∧ (accept s).attention = s.attention ∧ (accept s).lot = s.lot ∧
    (accept s).derivation = s.derivation ∧ (accept s).touchdown = s.touchdown ∧ (accept s).channels = s.channels ∧
    (accept s).ports = s.ports ∧ (accept s).rail = s.rail ∧ (accept s).reading = s.reading ∧
    (accept s).mirror = s.mirror ∧ (accept s).contactLine = s.contactLine ∧ (accept s).pending = s.pending := by
  unfold accept
  try dsimp only
  all_goals simp

/-- What `answer` leaves: everything but ram, requests, attention. -/
@[simp] theorem answer_keeps (s : State) (c : AnswerCode) (d : Word) (ws : List Word) :
    (answer s c d ws).phase = s.phase ∧ (answer s c d ws).straps = s.straps ∧ (answer s c d ws).enables = s.enables ∧
    (answer s c d ws).lot = s.lot ∧ (answer s c d ws).derivation = s.derivation ∧
    (answer s c d ws).touchdown = s.touchdown ∧ (answer s c d ws).channels = s.channels ∧
    (answer s c d ws).ports = s.ports ∧ (answer s c d ws).rail = s.rail ∧ (answer s c d ws).reading = s.reading ∧
    (answer s c d ws).mirror = s.mirror ∧ (answer s c d ws).contactLine = s.contactLine ∧
    (answer s c d ws).pending = s.pending := by
  unfold answer
  try dsimp only
  repeat' split
  all_goals simp

/-- What `answerAtOnce` leaves: everything but ram, requests, attention. -/
@[simp] theorem answerAtOnce_keeps (s : State) (c : AnswerCode) (d : Word) :
    (answerAtOnce s c d).phase = s.phase ∧ (answerAtOnce s c d).straps = s.straps ∧
    (answerAtOnce s c d).enables = s.enables ∧ (answerAtOnce s c d).lot = s.lot ∧
    (answerAtOnce s c d).derivation = s.derivation ∧ (answerAtOnce s c d).touchdown = s.touchdown ∧
    (answerAtOnce s c d).channels = s.channels ∧ (answerAtOnce s c d).ports = s.ports ∧
    (answerAtOnce s c d).rail = s.rail ∧ (answerAtOnce s c d).reading = s.reading ∧
    (answerAtOnce s c d).mirror = s.mirror ∧ (answerAtOnce s c d).contactLine = s.contactLine ∧
    (answerAtOnce s c d).pending = s.pending := by
  unfold answerAtOnce
  try dsimp only
  all_goals simp

/-- What `openLot` leaves: everything but ram, requests, attention, lot, rail. -/
@[simp] theorem openLot_keeps (s : State) :
    (openLot s).phase = s.phase ∧ (openLot s).straps = s.straps ∧ (openLot s).enables = s.enables ∧
    (openLot s).derivation = s.derivation ∧ (openLot s).touchdown = s.touchdown ∧ (openLot s).channels = s.channels ∧
    (openLot s).ports = s.ports ∧ (openLot s).reading = s.reading ∧ (openLot s).mirror = s.mirror ∧
    (openLot s).contactLine = s.contactLine ∧ (openLot s).pending = s.pending := by
  unfold openLot
  try dsimp only
  repeat' split
  all_goals simp

/-- What `closingSteps` leaves: everything but ram, requests, attention, lot. -/
@[simp] theorem closingSteps_keeps (s : State) :
    (closingSteps s).phase = s.phase ∧ (closingSteps s).straps = s.straps ∧ (closingSteps s).enables = s.enables ∧
    (closingSteps s).derivation = s.derivation ∧ (closingSteps s).touchdown = s.touchdown ∧
    (closingSteps s).channels = s.channels ∧ (closingSteps s).ports = s.ports ∧ (closingSteps s).rail = s.rail ∧
    (closingSteps s).reading = s.reading ∧ (closingSteps s).mirror = s.mirror ∧
    (closingSteps s).contactLine = s.contactLine ∧ (closingSteps s).pending = s.pending := by
  unfold closingSteps
  try dsimp only
  all_goals simp

/-- What `closeLot` leaves: everything but ram, requests, attention, lot. -/
@[simp] theorem closeLot_keeps (s : State) :
    (closeLot s).phase = s.phase ∧ (closeLot s).straps = s.straps ∧ (closeLot s).enables = s.enables ∧
    (closeLot s).derivation = s.derivation ∧ (closeLot s).touchdown = s.touchdown ∧
    (closeLot s).channels = s.channels ∧ (closeLot s).ports = s.ports ∧ (closeLot s).rail = s.rail ∧
    (closeLot s).reading = s.reading ∧ (closeLot s).mirror = s.mirror ∧ (closeLot s).contactLine = s.contactLine ∧
    (closeLot s).pending = s.pending := by
  unfold closeLot
  try dsimp only
  repeat' split
  all_goals simp

/-- What `spoilIndex` leaves: everything but ram, requests, attention, lot. -/
@[simp] theorem spoilIndex_keeps (s : State) :
    (spoilIndex s).phase = s.phase ∧ (spoilIndex s).straps = s.straps ∧ (spoilIndex s).enables = s.enables ∧
    (spoilIndex s).derivation = s.derivation ∧ (spoilIndex s).touchdown = s.touchdown ∧
    (spoilIndex s).channels = s.channels ∧ (spoilIndex s).ports = s.ports ∧ (spoilIndex s).rail = s.rail ∧
    (spoilIndex s).reading = s.reading ∧ (spoilIndex s).mirror = s.mirror ∧
    (spoilIndex s).contactLine = s.contactLine ∧ (spoilIndex s).pending = s.pending := by
  unfold spoilIndex
  try dsimp only
  repeat' split
  all_goals simp

/-- What `listResume` leaves: everything but ram, requests, attention. -/
@[simp] theorem listResume_keeps (s : State) :
    (listResume s).phase = s.phase ∧ (listResume s).straps = s.straps ∧ (listResume s).enables = s.enables ∧
    (listResume s).lot = s.lot ∧ (listResume s).derivation = s.derivation ∧ (listResume s).touchdown = s.touchdown ∧
    (listResume s).channels = s.channels ∧ (listResume s).ports = s.ports ∧ (listResume s).rail = s.rail ∧
    (listResume s).reading = s.reading ∧ (listResume s).mirror = s.mirror ∧
    (listResume s).contactLine = s.contactLine ∧ (listResume s).pending = s.pending := by
  unfold listResume
  try dsimp only
  repeat' split
  all_goals simp

/-- What `validateProfile` leaves: everything but ram, requests, attention. -/
@[simp] theorem validateProfile_keeps (s : State) :
    (validateProfile s).phase = s.phase ∧ (validateProfile s).straps = s.straps ∧
    (validateProfile s).enables = s.enables ∧ (validateProfile s).lot = s.lot ∧
    (validateProfile s).derivation = s.derivation ∧ (validateProfile s).touchdown = s.touchdown ∧
    (validateProfile s).channels = s.channels ∧ (validateProfile s).ports = s.ports ∧
    (validateProfile s).rail = s.rail ∧ (validateProfile s).reading = s.reading ∧
    (validateProfile s).mirror = s.mirror ∧ (validateProfile s).contactLine = s.contactLine ∧
    (validateProfile s).pending = s.pending := by
  unfold validateProfile
  try dsimp only
  repeat' split
  all_goals simp

/-- What `loadSecret` leaves: everything but ram, requests, attention, derivation. -/
@[simp] theorem loadSecret_keeps (s : State) :
    (loadSecret s).phase = s.phase ∧ (loadSecret s).straps = s.straps ∧ (loadSecret s).enables = s.enables ∧
    (loadSecret s).lot = s.lot ∧ (loadSecret s).touchdown = s.touchdown ∧ (loadSecret s).channels = s.channels ∧
    (loadSecret s).ports = s.ports ∧ (loadSecret s).rail = s.rail ∧ (loadSecret s).reading = s.reading ∧
    (loadSecret s).mirror = s.mirror ∧ (loadSecret s).contactLine = s.contactLine ∧ (loadSecret s).pending = s.pending := by
  unfold loadSecret
  try dsimp only
  repeat' split
  all_goals simp

/-- What `sealSecret` leaves: everything but ram, requests, attention, derivation. -/
@[simp] theorem sealSecret_keeps (s : State) :
    (sealSecret s).phase = s.phase ∧ (sealSecret s).straps = s.straps ∧ (sealSecret s).enables = s.enables ∧
    (sealSecret s).lot = s.lot ∧ (sealSecret s).touchdown = s.touchdown ∧ (sealSecret s).channels = s.channels ∧
    (sealSecret s).ports = s.ports ∧ (sealSecret s).rail = s.rail ∧ (sealSecret s).reading = s.reading ∧
    (sealSecret s).mirror = s.mirror ∧ (sealSecret s).contactLine = s.contactLine ∧ (sealSecret s).pending = s.pending := by
  unfold sealSecret
  try dsimp only
  repeat' split
  all_goals simp

/-- What `interruptWorking` leaves: everything but channels. -/
@[simp] theorem interruptWorking_keeps (s : State) (r : InterruptReason) :
    (interruptWorking s r).ram = s.ram ∧ (interruptWorking s r).phase = s.phase ∧
    (interruptWorking s r).straps = s.straps ∧ (interruptWorking s r).enables = s.enables ∧
    (interruptWorking s r).attention = s.attention ∧ (interruptWorking s r).requests = s.requests ∧
    (interruptWorking s r).lot = s.lot ∧ (interruptWorking s r).derivation = s.derivation ∧
    (interruptWorking s r).touchdown = s.touchdown ∧ (interruptWorking s r).ports = s.ports ∧
    (interruptWorking s r).rail = s.rail ∧ (interruptWorking s r).reading = s.reading ∧
    (interruptWorking s r).mirror = s.mirror ∧ (interruptWorking s r).contactLine = s.contactLine ∧
    (interruptWorking s r).pending = s.pending := by
  refine ⟨forSites_keeps (fun s => s.ram) (by intro s i; split <;> simp) _ _,
    forSites_keeps (fun s => s.phase) (by intro s i; split <;> simp) _ _,
    forSites_keeps (fun s => s.straps) (by intro s i; split <;> simp) _ _,
    forSites_keeps (fun s => s.enables) (by intro s i; split <;> simp) _ _,
    forSites_keeps (fun s => s.attention) (by intro s i; split <;> simp) _ _,
    forSites_keeps (fun s => s.requests) (by intro s i; split <;> simp) _ _,
    forSites_keeps (fun s => s.lot) (by intro s i; split <;> simp) _ _,
    forSites_keeps (fun s => s.derivation) (by intro s i; split <;> simp) _ _,
    forSites_keeps (fun s => s.touchdown) (by intro s i; split <;> simp) _ _,
    forSites_keeps (fun s => s.ports) (by intro s i; split <;> simp) _ _,
    forSites_keeps (fun s => s.rail) (by intro s i; split <;> simp) _ _,
    forSites_keeps (fun s => s.reading) (by intro s i; split <;> simp) _ _,
    forSites_keeps (fun s => s.mirror) (by intro s i; split <;> simp) _ _,
    forSites_keeps (fun s => s.contactLine) (by intro s i; split <;> simp) _ _,
    forSites_keeps (fun s => s.pending) (by intro s i; split <;> simp) _ _⟩

/-- What `abortTouchdown` leaves: everything but ram, requests, attention, channels, touchdown. -/
@[simp] theorem abortTouchdown_keeps (s : State) :
    (abortTouchdown s).phase = s.phase ∧ (abortTouchdown s).straps = s.straps ∧
    (abortTouchdown s).enables = s.enables ∧ (abortTouchdown s).lot = s.lot ∧
    (abortTouchdown s).derivation = s.derivation ∧ (abortTouchdown s).ports = s.ports ∧
    (abortTouchdown s).rail = s.rail ∧ (abortTouchdown s).reading = s.reading ∧
    (abortTouchdown s).mirror = s.mirror ∧ (abortTouchdown s).contactLine = s.contactLine ∧
    (abortTouchdown s).pending = s.pending := by
  unfold abortTouchdown
  try dsimp only
  repeat' split
  all_goals simp

/-- What `zeroCounters` leaves: everything but ports, touchdown. -/
@[simp] theorem zeroCounters_keeps (s : State) :
    (zeroCounters s).ram = s.ram ∧ (zeroCounters s).phase = s.phase ∧ (zeroCounters s).straps = s.straps ∧
    (zeroCounters s).enables = s.enables ∧ (zeroCounters s).attention = s.attention ∧
    (zeroCounters s).requests = s.requests ∧ (zeroCounters s).lot = s.lot ∧
    (zeroCounters s).derivation = s.derivation ∧ (zeroCounters s).channels = s.channels ∧
    (zeroCounters s).rail = s.rail ∧ (zeroCounters s).reading = s.reading ∧ (zeroCounters s).mirror = s.mirror ∧
    (zeroCounters s).contactLine = s.contactLine ∧ (zeroCounters s).pending = s.pending := by
  unfold zeroCounters
  dsimp only
  simp only [setTouchdown_ram, setTouchdown_phase, setTouchdown_straps, setTouchdown_enables, setTouchdown_attention, setTouchdown_requests, setTouchdown_lot, setTouchdown_derivation, setTouchdown_channels, setTouchdown_rail, setTouchdown_reading, setTouchdown_mirror, setTouchdown_contactLine, setTouchdown_pending]
  refine ⟨forSites_keeps (fun s => s.ram) (by simp) _ _,
    forSites_keeps (fun s => s.phase) (by simp) _ _,
    forSites_keeps (fun s => s.straps) (by simp) _ _,
    forSites_keeps (fun s => s.enables) (by simp) _ _,
    forSites_keeps (fun s => s.attention) (by simp) _ _,
    forSites_keeps (fun s => s.requests) (by simp) _ _,
    forSites_keeps (fun s => s.lot) (by simp) _ _,
    forSites_keeps (fun s => s.derivation) (by simp) _ _,
    forSites_keeps (fun s => s.channels) (by simp) _ _,
    forSites_keeps (fun s => s.rail) (by simp) _ _,
    forSites_keeps (fun s => s.reading) (by simp) _ _,
    forSites_keeps (fun s => s.mirror) (by simp) _ _,
    forSites_keeps (fun s => s.contactLine) (by simp) _ _,
    forSites_keeps (fun s => s.pending) (by simp) _ _⟩

/-- What `clearCounters` leaves: everything but ram, requests, attention, ports, touchdown. -/
@[simp] theorem clearCounters_keeps (s : State) :
    (clearCounters s).phase = s.phase ∧ (clearCounters s).straps = s.straps ∧ (clearCounters s).enables = s.enables ∧
    (clearCounters s).lot = s.lot ∧ (clearCounters s).derivation = s.derivation ∧
    (clearCounters s).channels = s.channels ∧ (clearCounters s).rail = s.rail ∧
    (clearCounters s).reading = s.reading ∧ (clearCounters s).mirror = s.mirror ∧
    (clearCounters s).contactLine = s.contactLine ∧ (clearCounters s).pending = s.pending := by
  unfold clearCounters
  try dsimp only
  all_goals simp

/-- What `carryOut` leaves: everything but ram, requests, attention, lot, derivation, touchdown, channels, ports, rail. -/
@[simp] theorem carryOut_keeps (c : Word) (s : State) :
    (carryOut c s).phase = s.phase ∧ (carryOut c s).straps = s.straps ∧ (carryOut c s).enables = s.enables ∧
    (carryOut c s).reading = s.reading ∧ (carryOut c s).mirror = s.mirror ∧
    (carryOut c s).contactLine = s.contactLine ∧ (carryOut c s).pending = s.pending := by
  unfold carryOut
  repeat' split
  all_goals simp

/-- What `examineOnce` leaves: everything but ram, requests, attention, lot, derivation, touchdown, channels, ports, rail. -/
@[simp] theorem examineOnce_keeps (s : State) :
    (examineOnce s).phase = s.phase ∧ (examineOnce s).straps = s.straps ∧ (examineOnce s).enables = s.enables ∧
    (examineOnce s).reading = s.reading ∧ (examineOnce s).mirror = s.mirror ∧
    (examineOnce s).contactLine = s.contactLine ∧ (examineOnce s).pending = s.pending := by
  unfold examineOnce
  try dsimp only
  repeat' split
  all_goals simp

/-- What `reexamine` leaves: everything but ram, requests, attention, lot, derivation, touchdown, channels, ports, rail. -/
@[simp] theorem reexamine_keeps (s : State) :
    (reexamine s).phase = s.phase ∧ (reexamine s).straps = s.straps ∧ (reexamine s).enables = s.enables ∧
    (reexamine s).reading = s.reading ∧ (reexamine s).mirror = s.mirror ∧ (reexamine s).contactLine = s.contactLine ∧
    (reexamine s).pending = s.pending := by
  unfold reexamine
  try dsimp only
  repeat' split
  all_goals simp

/-- What `examine` leaves: everything but ram, requests, attention, lot, derivation, touchdown, channels, ports, rail. -/
@[simp] theorem examine_keeps (s : State) :
    (examine s).phase = s.phase ∧ (examine s).straps = s.straps ∧ (examine s).enables = s.enables ∧
    (examine s).reading = s.reading ∧ (examine s).mirror = s.mirror ∧ (examine s).contactLine = s.contactLine ∧
    (examine s).pending = s.pending := by
  unfold examine
  try dsimp only
  repeat' split
  all_goals simp

/-- What `notifyUnit` leaves: everything but ram, requests, attention, lot, derivation, touchdown, channels, ports, rail. -/
@[simp] theorem notifyUnit_keeps (s : State) :
    (notifyUnit s).phase = s.phase ∧ (notifyUnit s).straps = s.straps ∧ (notifyUnit s).enables = s.enables ∧
    (notifyUnit s).reading = s.reading ∧ (notifyUnit s).mirror = s.mirror ∧
    (notifyUnit s).contactLine = s.contactLine ∧ (notifyUnit s).pending = s.pending := by
  unfold notifyUnit
  try dsimp only
  repeat' split
  all_goals simp

/-- What `examineIfPending` leaves: everything but ram, requests, attention, lot, derivation, touchdown, channels, ports, rail. -/
@[simp] theorem examineIfPending_keeps (s : State) :
    (examineIfPending s).phase = s.phase ∧ (examineIfPending s).straps = s.straps ∧
    (examineIfPending s).enables = s.enables ∧ (examineIfPending s).reading = s.reading ∧
    (examineIfPending s).mirror = s.mirror ∧ (examineIfPending s).contactLine = s.contactLine ∧
    (examineIfPending s).pending = s.pending := by
  unfold examineIfPending
  try dsimp only
  repeat' split
  all_goals simp

/-! ## Touchdown controller -/

/-- What `closeIfDraining` leaves: everything but ram, requests, attention, lot, derivation, touchdown, channels, ports, rail. -/
@[simp] theorem closeIfDraining_keeps (s : State) :
    (closeIfDraining s).phase = s.phase ∧ (closeIfDraining s).straps = s.straps ∧
    (closeIfDraining s).enables = s.enables ∧ (closeIfDraining s).reading = s.reading ∧
    (closeIfDraining s).mirror = s.mirror ∧ (closeIfDraining s).contactLine = s.contactLine ∧
    (closeIfDraining s).pending = s.pending := by
  unfold closeIfDraining
  try dsimp only
  repeat' split
  all_goals simp

/-- What `beginTouchdown` leaves: everything but touchdown. -/
@[simp] theorem beginTouchdown_keeps (s : State) :
    (beginTouchdown s).ram = s.ram ∧ (beginTouchdown s).phase = s.phase ∧ (beginTouchdown s).straps = s.straps ∧
    (beginTouchdown s).enables = s.enables ∧ (beginTouchdown s).attention = s.attention ∧
    (beginTouchdown s).requests = s.requests ∧ (beginTouchdown s).lot = s.lot ∧
    (beginTouchdown s).derivation = s.derivation ∧ (beginTouchdown s).channels = s.channels ∧
    (beginTouchdown s).ports = s.ports ∧ (beginTouchdown s).rail = s.rail ∧ (beginTouchdown s).reading = s.reading ∧
    (beginTouchdown s).mirror = s.mirror ∧ (beginTouchdown s).contactLine = s.contactLine ∧
    (beginTouchdown s).pending = s.pending := by
  unfold beginTouchdown
  try dsimp only
  all_goals simp

/-- What `takeRise` leaves: everything but touchdown. -/
@[simp] theorem takeRise_keeps (s : State) :
    (takeRise s).ram = s.ram ∧ (takeRise s).phase = s.phase ∧ (takeRise s).straps = s.straps ∧
    (takeRise s).enables = s.enables ∧ (takeRise s).attention = s.attention ∧ (takeRise s).requests = s.requests ∧
    (takeRise s).lot = s.lot ∧ (takeRise s).derivation = s.derivation ∧ (takeRise s).channels = s.channels ∧
    (takeRise s).ports = s.ports ∧ (takeRise s).rail = s.rail ∧ (takeRise s).reading = s.reading ∧
    (takeRise s).mirror = s.mirror ∧ (takeRise s).contactLine = s.contactLine ∧ (takeRise s).pending = s.pending := by
  unfold takeRise
  try dsimp only
  repeat' split
  all_goals simp

/-- What `bounce` leaves: everything but ram, requests, attention, lot, derivation, touchdown, channels, ports, rail. -/
@[simp] theorem bounce_keeps (s : State) :
    (bounce s).phase = s.phase ∧ (bounce s).straps = s.straps ∧ (bounce s).enables = s.enables ∧
    (bounce s).reading = s.reading ∧ (bounce s).mirror = s.mirror ∧ (bounce s).contactLine = s.contactLine ∧
    (bounce s).pending = s.pending := by
  unfold bounce
  try dsimp only
  all_goals simp

/-- What `fallInActive` leaves: everything but touchdown, channels. -/
@[simp] theorem fallInActive_keeps (s : State) :
    (fallInActive s).ram = s.ram ∧ (fallInActive s).phase = s.phase ∧ (fallInActive s).straps = s.straps ∧
    (fallInActive s).enables = s.enables ∧ (fallInActive s).attention = s.attention ∧
    (fallInActive s).requests = s.requests ∧ (fallInActive s).lot = s.lot ∧
    (fallInActive s).derivation = s.derivation ∧ (fallInActive s).ports = s.ports ∧ (fallInActive s).rail = s.rail ∧
    (fallInActive s).reading = s.reading ∧ (fallInActive s).mirror = s.mirror ∧
    (fallInActive s).contactLine = s.contactLine ∧ (fallInActive s).pending = s.pending := by
  unfold fallInActive
  try dsimp only
  repeat' split
  all_goals simp

/-- What `takeFall` leaves: everything but ram, requests, attention, lot, derivation, touchdown, channels, ports, rail. -/
@[simp] theorem takeFall_keeps (s : State) :
    (takeFall s).phase = s.phase ∧ (takeFall s).straps = s.straps ∧ (takeFall s).enables = s.enables ∧
    (takeFall s).reading = s.reading ∧ (takeFall s).mirror = s.mirror ∧ (takeFall s).contactLine = s.contactLine ∧
    (takeFall s).pending = s.pending := by
  unfold takeFall
  try dsimp only
  repeat' split
  all_goals simp

/-- What `startSite` leaves: everything but ram, channels. -/
@[simp] theorem startSite_keeps (s : State) (e : Site → PlanEntry) (l : SiteSet) (i : Site) :
    (startSite e l s i).phase = s.phase ∧ (startSite e l s i).straps = s.straps ∧ (startSite e l s i).enables = s.enables ∧
    (startSite e l s i).attention = s.attention ∧ (startSite e l s i).requests = s.requests ∧
    (startSite e l s i).lot = s.lot ∧ (startSite e l s i).derivation = s.derivation ∧
    (startSite e l s i).touchdown = s.touchdown ∧ (startSite e l s i).ports = s.ports ∧ (startSite e l s i).rail = s.rail ∧
    (startSite e l s i).reading = s.reading ∧ (startSite e l s i).mirror = s.mirror ∧
    (startSite e l s i).contactLine = s.contactLine ∧ (startSite e l s i).pending = s.pending := by
  unfold startSite
  try dsimp only
  repeat' split
  all_goals simp

/-- What `takeFrame` leaves: everything but ram, touchdown. -/
@[simp] theorem takeFrame_keeps (s : State) (f : Fin 2) :
    (takeFrame s f).phase = s.phase ∧ (takeFrame s f).straps = s.straps ∧ (takeFrame s f).enables = s.enables ∧
    (takeFrame s f).attention = s.attention ∧ (takeFrame s f).requests = s.requests ∧ (takeFrame s f).lot = s.lot ∧
    (takeFrame s f).derivation = s.derivation ∧ (takeFrame s f).channels = s.channels ∧
    (takeFrame s f).ports = s.ports ∧ (takeFrame s f).rail = s.rail ∧ (takeFrame s f).reading = s.reading ∧
    (takeFrame s f).mirror = s.mirror ∧ (takeFrame s f).contactLine = s.contactLine ∧
    (takeFrame s f).pending = s.pending := by
  unfold takeFrame
  try dsimp only
  all_goals simp

/-- What `noPlan` leaves: everything but ram, requests, attention, lot, derivation, touchdown, channels, ports, rail. -/
@[simp] theorem noPlan_keeps (s : State) :
    (noPlan s).phase = s.phase ∧ (noPlan s).straps = s.straps ∧ (noPlan s).enables = s.enables ∧
    (noPlan s).reading = s.reading ∧ (noPlan s).mirror = s.mirror ∧ (noPlan s).contactLine = s.contactLine ∧
    (noPlan s).pending = s.pending := by
  unfold noPlan
  try dsimp only
  all_goals simp

/-- What `considerFrame` leaves: everything but ram, requests, attention, lot, derivation, touchdown, channels, ports, rail. -/
@[simp] theorem considerFrame_keeps (s : State) (l : SiteSet) :
    (considerFrame s l).phase = s.phase ∧ (considerFrame s l).straps = s.straps ∧ (considerFrame s l).enables = s.enables ∧
    (considerFrame s l).reading = s.reading ∧ (considerFrame s l).mirror = s.mirror ∧
    (considerFrame s l).contactLine = s.contactLine ∧ (considerFrame s l).pending = s.pending := by
  unfold considerFrame
  dsimp only
  split
  · refine ⟨(forSites_keeps (fun s => s.phase) (by simp) _ _).trans (by simp),
      (forSites_keeps (fun s => s.straps) (by simp) _ _).trans (by simp),
      (forSites_keeps (fun s => s.enables) (by simp) _ _).trans (by simp),
      (forSites_keeps (fun s => s.reading) (by simp) _ _).trans (by simp),
      (forSites_keeps (fun s => s.mirror) (by simp) _ _).trans (by simp),
      (forSites_keeps (fun s => s.contactLine) (by simp) _ _).trans (by simp),
      (forSites_keeps (fun s => s.pending) (by simp) _ _).trans (by simp)⟩
  · simp

/-- What `writeFinish` leaves: everything but ram. -/
@[simp] theorem writeFinish_keeps (s : State) (f : Fin 2) :
    (writeFinish s f).phase = s.phase ∧ (writeFinish s f).straps = s.straps ∧ (writeFinish s f).enables = s.enables ∧
    (writeFinish s f).attention = s.attention ∧ (writeFinish s f).requests = s.requests ∧
    (writeFinish s f).lot = s.lot ∧ (writeFinish s f).derivation = s.derivation ∧
    (writeFinish s f).touchdown = s.touchdown ∧ (writeFinish s f).channels = s.channels ∧
    (writeFinish s f).ports = s.ports ∧ (writeFinish s f).rail = s.rail ∧ (writeFinish s f).reading = s.reading ∧
    (writeFinish s f).mirror = s.mirror ∧ (writeFinish s f).contactLine = s.contactLine ∧
    (writeFinish s f).pending = s.pending := by
  unfold writeFinish
  try dsimp only
  all_goals simp

/-- What `answerAbort` leaves: everything but ram, requests, attention, touchdown. -/
@[simp] theorem answerAbort_keeps (s : State) (f : Fin 2) :
    (answerAbort s f).phase = s.phase ∧ (answerAbort s f).straps = s.straps ∧ (answerAbort s f).enables = s.enables ∧
    (answerAbort s f).lot = s.lot ∧ (answerAbort s f).derivation = s.derivation ∧
    (answerAbort s f).channels = s.channels ∧ (answerAbort s f).ports = s.ports ∧ (answerAbort s f).rail = s.rail ∧
    (answerAbort s f).reading = s.reading ∧ (answerAbort s f).mirror = s.mirror ∧
    (answerAbort s f).contactLine = s.contactLine ∧ (answerAbort s f).pending = s.pending := by
  unfold answerAbort
  try dsimp only
  repeat' split
  all_goals simp

/-- What `leaveActive` leaves: everything but channels, touchdown. -/
@[simp] theorem leaveActive_keeps (s : State) :
    (leaveActive s).ram = s.ram ∧ (leaveActive s).phase = s.phase ∧ (leaveActive s).straps = s.straps ∧
    (leaveActive s).enables = s.enables ∧ (leaveActive s).attention = s.attention ∧
    (leaveActive s).requests = s.requests ∧ (leaveActive s).lot = s.lot ∧ (leaveActive s).derivation = s.derivation ∧
    (leaveActive s).ports = s.ports ∧ (leaveActive s).rail = s.rail ∧ (leaveActive s).reading = s.reading ∧
    (leaveActive s).mirror = s.mirror ∧ (leaveActive s).contactLine = s.contactLine ∧
    (leaveActive s).pending = s.pending := by
  unfold leaveActive
  dsimp only
  simp only [setTouchdown_ram, setTouchdown_phase, setTouchdown_straps, setTouchdown_enables, setTouchdown_attention, setTouchdown_requests, setTouchdown_lot, setTouchdown_derivation, setTouchdown_ports, setTouchdown_rail, setTouchdown_reading, setTouchdown_mirror, setTouchdown_contactLine, setTouchdown_pending]
  refine ⟨forSites_keeps (fun s => s.ram) (by intro s i; split <;> simp) _ _,
    forSites_keeps (fun s => s.phase) (by intro s i; split <;> simp) _ _,
    forSites_keeps (fun s => s.straps) (by intro s i; split <;> simp) _ _,
    forSites_keeps (fun s => s.enables) (by intro s i; split <;> simp) _ _,
    forSites_keeps (fun s => s.attention) (by intro s i; split <;> simp) _ _,
    forSites_keeps (fun s => s.requests) (by intro s i; split <;> simp) _ _,
    forSites_keeps (fun s => s.lot) (by intro s i; split <;> simp) _ _,
    forSites_keeps (fun s => s.derivation) (by intro s i; split <;> simp) _ _,
    forSites_keeps (fun s => s.ports) (by intro s i; split <;> simp) _ _,
    forSites_keeps (fun s => s.rail) (by intro s i; split <;> simp) _ _,
    forSites_keeps (fun s => s.reading) (by intro s i; split <;> simp) _ _,
    forSites_keeps (fun s => s.mirror) (by intro s i; split <;> simp) _ _,
    forSites_keeps (fun s => s.contactLine) (by intro s i; split <;> simp) _ _,
    forSites_keeps (fun s => s.pending) (by intro s i; split <;> simp) _ _⟩

/-- What `finishFrame` leaves: everything but ram, requests, attention, lot, derivation, touchdown, channels, ports, rail. -/
@[simp] theorem finishFrame_keeps (s : State) (f : Fin 2) :
    (finishFrame s f).phase = s.phase ∧ (finishFrame s f).straps = s.straps ∧ (finishFrame s f).enables = s.enables ∧
    (finishFrame s f).reading = s.reading ∧ (finishFrame s f).mirror = s.mirror ∧
    (finishFrame s f).contactLine = s.contactLine ∧ (finishFrame s f).pending = s.pending := by
  unfold finishFrame
  try dsimp only
  repeat' split
  all_goals simp

/-! ## Resets -/

/-- What `discardRequest` leaves: everything but ram, requests. -/
@[simp] theorem discardRequest_keeps (s : State) :
    (discardRequest s).phase = s.phase ∧ (discardRequest s).straps = s.straps ∧
    (discardRequest s).enables = s.enables ∧ (discardRequest s).attention = s.attention ∧
    (discardRequest s).lot = s.lot ∧ (discardRequest s).derivation = s.derivation ∧
    (discardRequest s).touchdown = s.touchdown ∧ (discardRequest s).channels = s.channels ∧
    (discardRequest s).ports = s.ports ∧ (discardRequest s).rail = s.rail ∧ (discardRequest s).reading = s.reading ∧
    (discardRequest s).mirror = s.mirror ∧ (discardRequest s).contactLine = s.contactLine ∧
    (discardRequest s).pending = s.pending := by
  unfold discardRequest
  try dsimp only
  all_goals simp

/-- What `takeInFlight` leaves: everything but channels, lot. -/
@[simp] theorem takeInFlight_keeps (s : State) (i : Site) :
    (takeInFlight s i).ram = s.ram ∧ (takeInFlight s i).phase = s.phase ∧ (takeInFlight s i).straps = s.straps ∧
    (takeInFlight s i).enables = s.enables ∧ (takeInFlight s i).attention = s.attention ∧
    (takeInFlight s i).requests = s.requests ∧ (takeInFlight s i).derivation = s.derivation ∧
    (takeInFlight s i).touchdown = s.touchdown ∧ (takeInFlight s i).ports = s.ports ∧
    (takeInFlight s i).rail = s.rail ∧ (takeInFlight s i).reading = s.reading ∧
    (takeInFlight s i).mirror = s.mirror ∧ (takeInFlight s i).contactLine = s.contactLine ∧
    (takeInFlight s i).pending = s.pending := by
  unfold takeInFlight
  try dsimp only
  repeat' split
  all_goals simp

/-- What `giveUpFresh` leaves: everything but channels, lot. -/
@[simp] theorem giveUpFresh_keeps (s : State) (i : Site) :
    (giveUpFresh s i).ram = s.ram ∧ (giveUpFresh s i).phase = s.phase ∧ (giveUpFresh s i).straps = s.straps ∧
    (giveUpFresh s i).enables = s.enables ∧ (giveUpFresh s i).attention = s.attention ∧
    (giveUpFresh s i).requests = s.requests ∧ (giveUpFresh s i).derivation = s.derivation ∧
    (giveUpFresh s i).touchdown = s.touchdown ∧ (giveUpFresh s i).ports = s.ports ∧ (giveUpFresh s i).rail = s.rail ∧
    (giveUpFresh s i).reading = s.reading ∧ (giveUpFresh s i).mirror = s.mirror ∧
    (giveUpFresh s i).contactLine = s.contactLine ∧ (giveUpFresh s i).pending = s.pending := by
  unfold giveUpFresh
  try dsimp only
  repeat' split
  all_goals simp

/-- What `resetClosure` leaves: everything but ram, channels, lot. -/
@[simp] theorem resetClosure_keeps (s : State) (o : List Site) :
    (resetClosure s o).phase = s.phase ∧ (resetClosure s o).straps = s.straps ∧
    (resetClosure s o).enables = s.enables ∧ (resetClosure s o).attention = s.attention ∧
    (resetClosure s o).requests = s.requests ∧ (resetClosure s o).derivation = s.derivation ∧
    (resetClosure s o).touchdown = s.touchdown ∧ (resetClosure s o).ports = s.ports ∧
    (resetClosure s o).rail = s.rail ∧ (resetClosure s o).reading = s.reading ∧
    (resetClosure s o).mirror = s.mirror ∧ (resetClosure s o).contactLine = s.contactLine ∧
    (resetClosure s o).pending = s.pending := by
  have h1 (l : List Site) (s : State) {α : Type} (g : State → α) (h : ∀ s i, g (takeInFlight s i) = g s) :
      g (forSites l takeInFlight s) = g s := forSites_keeps g h l s
  have h2 (l : List Site) (s : State) {α : Type} (g : State → α) (h : ∀ s i, g (giveUpFresh s i) = g s) :
      g (forSites l giveUpFresh s) = g s := forSites_keeps g h l s
  unfold resetClosure
  dsimp only
  split
  · simp
  · refine ⟨by simpa using (h2 _ _ (fun s => s.phase) (by simp)).trans ((setLot_phase _ _).trans (h1 _ _ (fun s => s.phase) (by simp))),
      by simpa using (h2 _ _ (fun s => s.straps) (by simp)).trans ((setLot_straps _ _).trans (h1 _ _ (fun s => s.straps) (by simp))),
      by simpa using (h2 _ _ (fun s => s.enables) (by simp)).trans ((setLot_enables _ _).trans (h1 _ _ (fun s => s.enables) (by simp))),
      by simpa using (h2 _ _ (fun s => s.attention) (by simp)).trans ((setLot_attention _ _).trans (h1 _ _ (fun s => s.attention) (by simp))),
      by simpa using (h2 _ _ (fun s => s.requests) (by simp)).trans ((setLot_requests _ _).trans (h1 _ _ (fun s => s.requests) (by simp))),
      by simpa using (h2 _ _ (fun s => s.derivation) (by simp)).trans ((setLot_derivation _ _).trans (h1 _ _ (fun s => s.derivation) (by simp))),
      by simpa using (h2 _ _ (fun s => s.touchdown) (by simp)).trans ((setLot_touchdown _ _).trans (h1 _ _ (fun s => s.touchdown) (by simp))),
      by simpa using (h2 _ _ (fun s => s.ports) (by simp)).trans ((setLot_ports _ _).trans (h1 _ _ (fun s => s.ports) (by simp))),
      by simpa using (h2 _ _ (fun s => s.rail) (by simp)).trans ((setLot_rail _ _).trans (h1 _ _ (fun s => s.rail) (by simp))),
      by simpa using (h2 _ _ (fun s => s.reading) (by simp)).trans ((setLot_reading _ _).trans (h1 _ _ (fun s => s.reading) (by simp))),
      by simpa using (h2 _ _ (fun s => s.mirror) (by simp)).trans ((setLot_mirror _ _).trans (h1 _ _ (fun s => s.mirror) (by simp))),
      by simpa using (h2 _ _ (fun s => s.contactLine) (by simp)).trans ((setLot_contactLine _ _).trans (h1 _ _ (fun s => s.contactLine) (by simp))),
      by simpa using (h2 _ _ (fun s => s.pending) (by simp)).trans ((setLot_pending _ _).trans (h1 _ _ (fun s => s.pending) (by simp)))⟩

/-- What `resetStepThree` leaves: everything but ram, channels, mirror. -/
@[simp] theorem resetStepThree_keeps (s : State) :
    (resetStepThree s).phase = s.phase ∧ (resetStepThree s).straps = s.straps ∧
    (resetStepThree s).enables = s.enables ∧ (resetStepThree s).attention = s.attention ∧
    (resetStepThree s).requests = s.requests ∧ (resetStepThree s).lot = s.lot ∧
    (resetStepThree s).derivation = s.derivation ∧ (resetStepThree s).touchdown = s.touchdown ∧
    (resetStepThree s).ports = s.ports ∧ (resetStepThree s).rail = s.rail ∧ (resetStepThree s).reading = s.reading ∧
    (resetStepThree s).contactLine = s.contactLine ∧ (resetStepThree s).pending = s.pending := by
  unfold resetStepThree
  try dsimp only
  all_goals simp

/-- What `resetStepOne` leaves: everything but ram, requests, rail, derivation, ports, touchdown. -/
@[simp] theorem resetStepOne_keeps (s : State) :
    (resetStepOne s).phase = s.phase ∧ (resetStepOne s).straps = s.straps ∧ (resetStepOne s).enables = s.enables ∧
    (resetStepOne s).attention = s.attention ∧ (resetStepOne s).lot = s.lot ∧
    (resetStepOne s).channels = s.channels ∧ (resetStepOne s).reading = s.reading ∧
    (resetStepOne s).mirror = s.mirror ∧ (resetStepOne s).contactLine = s.contactLine ∧
    (resetStepOne s).pending = s.pending := by
  unfold resetStepOne
  try dsimp only
  all_goals simp

end Sys2Proof.Machine
end

