-- ==== Sys2Proof/Laws/Canonical.lean ====
section
/-!
SUPPORT. Every shared operation keeps the canonical form of the exchange RAM.
-/

namespace Sys2Proof.Machine

/-- The exchange RAM of a state is in canonical form. -/
def RamOk (s : State) : Prop := s.ram.wf

theorem ramOk_iff (s : State) : RamOk s ↔ s.ram.wf := Iff.rfl

/-- The canonical form depends on the exchange RAM alone. -/
theorem ramOk_of_eq {s t : State} (h : RamOk s) (e : t.ram = s.ram) : RamOk t := by
  rw [ramOk_iff, e]
  exact h

@[simp] theorem writeRam_ok {s : State} (h : RamOk s) (a : Nat) (w : Word) : RamOk (writeRam s a w) := writeWord_wf h a w

@[simp] theorem writeRamWords_ok {s : State} (h : RamOk s) (a : Nat) (ws : List Word) : RamOk (writeRamWords s a ws) :=
  writeWords_wf h a ws

@[simp] theorem zeroRam_ok {s : State} (h : RamOk s) (b n : Nat) : RamOk (zeroRam s b n) := zeroRange_wf h b n

@[simp] theorem setChannel_ok (s : State) (i : Site) (c : SiteChannel) : RamOk (setChannel s i c) ↔ RamOk s := Iff.rfl
@[simp] theorem setPort_ok (s : State) (i : Site) (p : LinkPort) : RamOk (setPort s i p) ↔ RamOk s := Iff.rfl
@[simp] theorem setLot_ok (s : State) (l : LotController) : RamOk (setLot s l) ↔ RamOk s := Iff.rfl
@[simp] theorem setRequests_ok (s : State) (r : RequestUnit) : RamOk (setRequests s r) ↔ RamOk s := Iff.rfl
@[simp] theorem setDerivation_ok (s : State) (d : DerivationUnit) : RamOk (setDerivation s d) ↔ RamOk s := Iff.rfl
@[simp] theorem setTouchdown_ok (s : State) (x : TouchdownController) : RamOk (setTouchdown s x) ↔ RamOk s := Iff.rfl
@[simp] theorem setRail_ok (s : State) (r : RailController) : RamOk (setRail s r) ↔ RamOk s := Iff.rfl
@[simp] theorem setMirror_ok (s : State) (m : MirrorWriter) : RamOk (setMirror s m) ↔ RamOk s := Iff.rfl
@[simp] theorem raise_ok (s : State) (c : AttentionCause) : RamOk (raise s c) ↔ RamOk s := Iff.rfl
@[simp] theorem modifyChannel_ok (s : State) (i : Site) (f : SiteChannel → SiteChannel) : RamOk (modifyChannel s i f) ↔ RamOk s := Iff.rfl
@[simp] theorem setActivity_ok (s : State) (i : Site) (x : Activity) : RamOk (setActivity s i x) ↔ RamOk s := Iff.rfl
@[simp] theorem modifyPort_ok (s : State) (i : Site) (f : LinkPort → LinkPort) : RamOk (modifyPort s i f) ↔ RamOk s := Iff.rfl
@[simp] theorem countOn_ok (s : State) (i : Site) (f : LinkCounters → LinkCounters) : RamOk (countOn s i f) ↔ RamOk s := Iff.rfl

@[simp] theorem writeSummary_ok {s : State} (h : RamOk s) (r : ClosureReason) : RamOk (writeSummary s r) := by
  unfold writeSummary
  try dsimp only
  all_goals simp (maxDischargeDepth := 12) [h]

@[simp] theorem writeResumeCopy_ok {s : State} (h : RamOk s) : RamOk (writeResumeCopy s) := by
  unfold writeResumeCopy
  try dsimp only
  all_goals simp (maxDischargeDepth := 12) [h]

@[simp] theorem publishSecretState_ok {s : State} (h : RamOk s) : RamOk (publishSecretState s) := by
  unfold publishSecretState
  try dsimp only
  all_goals simp (maxDischargeDepth := 12) [h]

@[simp] theorem writeAnswer_ok {s : State} (h : RamOk s) (q : Half) (c : AnswerCode) (d : Word) (ws : List Word) : RamOk (writeAnswer s q c d ws) := by
  unfold writeAnswer
  try dsimp only
  all_goals simp (maxDischargeDepth := 12) [h]

@[simp] theorem writeIdentity_ok {s : State} (h : RamOk s) : RamOk (writeIdentity s) := by
  unfold writeIdentity
  try dsimp only
  all_goals simp (maxDischargeDepth := 12) [h]

/-! ## Site channels -/

@[simp] theorem writeRecord_ok {s : State} (h : RamOk s) (i : Site) (d : Disposition) (c : Option SpoilCause) : RamOk (writeRecord s i d c) := by
  unfold writeRecord
  try dsimp only
  repeat' split
  all_goals simp (maxDischargeDepth := 12) [h]

@[simp] theorem finish_ok {s : State} (h : RamOk s) (i : Site) (d : Disposition) (c : Option SpoilCause) : RamOk (finish s i d c) := by
  unfold finish
  try dsimp only
  all_goals simp (maxDischargeDepth := 12) [h]

@[simp] theorem endDie_ok {s : State} (h : RamOk s) (i : Site) (o : Outcome) (d : Disposition) : RamOk (endDie s i o d) := by
  unfold endDie
  try dsimp only
  all_goals simp (maxDischargeDepth := 12) [h]

@[simp] theorem reportOutcome_ok (s : State) (i : Site) (o : Outcome) (r : Report) : RamOk (reportOutcome s i o r) ↔ RamOk s := by simp [ramOk_iff]

@[simp] theorem spoilAt_ok (s : State) (i : Site) (o : Outcome) (c : SpoilCause) (p : Option Nat) : RamOk (spoilAt s i o c p) ↔ RamOk s := by simp [ramOk_iff]

@[simp] theorem sendOwed_ok {s : State} (h : RamOk s) (i : Site) : RamOk (sendOwed s i) := by
  unfold sendOwed
  try dsimp only
  repeat' split
  all_goals simp (maxDischargeDepth := 12) [h]

@[simp] theorem dispose_ok {s : State} (h : RamOk s) (i : Site) : RamOk (dispose s i) := by
  unfold dispose
  try dsimp only
  repeat' split
  all_goals simp (maxDischargeDepth := 12) [h]

@[simp] theorem interruptByLink_ok {s : State} (h : RamOk s) (i : Site) : RamOk (interruptByLink s i) := by
  unfold interruptByLink
  try dsimp only
  all_goals simp (maxDischargeDepth := 12) [h]

@[simp] theorem channelLinkFailure_ok {s : State} (h : RamOk s) (i : Site) : RamOk (channelLinkFailure s i) := by
  unfold channelLinkFailure
  try dsimp only
  repeat' split
  all_goals simp (maxDischargeDepth := 12) [h]

@[simp] theorem unexpectedStatus_ok {s : State} (h : RamOk s) (i : Site) : RamOk (unexpectedStatus s i) := by
  unfold unexpectedStatus
  try dsimp only
  repeat' split
  all_goals simp (maxDischargeDepth := 12) [h]

@[simp] theorem lotCheck_ok {s : State} (h : RamOk s) (i : Site) : RamOk (lotCheck s i) := by
  unfold lotCheck
  try dsimp only
  repeat' split
  all_goals simp (maxDischargeDepth := 12) [h]

@[simp] theorem identResponse_ok {s : State} (h : RamOk s) (i : Site) (d : List Byte) : RamOk (identResponse s i d) := by
  unfold identResponse
  try dsimp only
  repeat' split
  all_goals simp (maxDischargeDepth := 12) [h]

@[simp] theorem onlyReadback_ok {s : State} (h : RamOk s) (i : Site) (x : Image) : RamOk (onlyReadback s i x) := by
  unfold onlyReadback
  try dsimp only
  repeat' split
  all_goals simp (maxDischargeDepth := 12) [h]

@[simp] theorem blankReadback_ok (s : State) (i : Site) (x : Image) : RamOk (blankReadback s i x) ↔ RamOk s := by simp [ramOk_iff]

@[simp] theorem notListed_ok {s : State} (h : RamOk s) (i : Site) : RamOk (notListed s i) := by
  unfold notListed
  try dsimp only
  repeat' split
  all_goals simp (maxDischargeDepth := 12) [h]

@[simp] theorem evalReadback_ok {s : State} (h : RamOk s) (i : Site) (x : Image) : RamOk (evalReadback s i x) := by
  unfold evalReadback
  try dsimp only
  repeat' split
  all_goals simp (maxDischargeDepth := 12) [h]

@[simp] theorem nextPosition_ok (s : State) (i : Site) : RamOk (nextPosition s i) ↔ RamOk s := by simp [ramOk_iff]

@[simp] theorem takeKey_ok (s : State) (i : Site) (k : Key) : RamOk (takeKey s i k) ↔ RamOk s := by simp [ramOk_iff]

@[simp] theorem armResponse_ok {s : State} (h : RamOk s) (i : Site) (b : Byte) : RamOk (armResponse s i b) := by
  unfold armResponse
  try dsimp only
  repeat' split
  all_goals simp (maxDischargeDepth := 12) [h]

@[simp] theorem notBlown_ok (s : State) (i : Site) (p : Nat) : RamOk (notBlown s i p) ↔ RamOk s := by simp [ramOk_iff]

@[simp] theorem verifyReadback_ok (s : State) (i : Site) (w : Half) : RamOk (verifyReadback s i w) ↔ RamOk s := by simp [ramOk_iff]

@[simp] theorem lowReadback_ok (s : State) (i : Site) (x : Image) : RamOk (lowReadback s i x) ↔ RamOk s := by simp [ramOk_iff]

@[simp] theorem highReadback_ok (s : State) (i : Site) (x : Image) : RamOk (highReadback s i x) ↔ RamOk s := by simp [ramOk_iff]

@[simp] theorem okResponse_ok {s : State} (h : RamOk s) (i : Site) (t : LinkTask) (d : List Byte) : RamOk (okResponse s i t d) := by
  unfold okResponse
  try dsimp only
  repeat' split
  all_goals simp (maxDischargeDepth := 12) [h]

@[simp] theorem channelResponse_ok {s : State} (h : RamOk s) (i : Site) (b : Byte) (d : List Byte) : RamOk (channelResponse s i b d) := by
  unfold channelResponse
  try dsimp only
  repeat' split
  all_goals simp (maxDischargeDepth := 12) [h]

@[simp] theorem takeReport_ok {s : State} (h : RamOk s) (i : Site) (r : Report) : RamOk (takeReport s i r) := by
  unfold takeReport
  try dsimp only
  repeat' split
  all_goals simp (maxDischargeDepth := 12) [h]

/-! ## Probe link ports -/

@[simp] theorem sendFrame_ok (s : State) (i : Site) (r : LinkRequest) (p : Bool) : RamOk (sendFrame s i r p) ↔ RamOk s := by simp [ramOk_iff]

@[simp] theorem takeExchange_ok (s : State) (i : Site) : RamOk (takeExchange s i) ↔ RamOk s := by simp [ramOk_iff]

@[simp] theorem repeatFrame_ok (s : State) (i : Site) : RamOk (repeatFrame s i) ↔ RamOk s := by simp [ramOk_iff]

@[simp] theorem resendAfterDrain_ok (s : State) (i : Site) : RamOk (resendAfterDrain s i) ↔ RamOk s := by simp [ramOk_iff]

@[simp] theorem abandon_ok (s : State) (i : Site) : RamOk (abandon s i) ↔ RamOk s := by simp [ramOk_iff]

@[simp] theorem linkFailure_ok {s : State} (h : RamOk s) (i : Site) : RamOk (linkFailure s i) := by
  unfold linkFailure
  try dsimp only
  all_goals simp (maxDischargeDepth := 12) [h]

@[simp] theorem failSending_ok {s : State} (h : RamOk s) (i : Site) (b : Bool) : RamOk (failSending s i b) := by
  unfold failSending
  try dsimp only
  repeat' split
  all_goals simp (maxDischargeDepth := 12) [h]

@[simp] theorem handOn_ok {s : State} (h : RamOk s) (i : Site) (b : Byte) (d : List Byte) : RamOk (handOn s i b d) := by
  unfold handOn
  try dsimp only
  all_goals simp (maxDischargeDepth := 12) [h]

@[simp] theorem goodResponse_ok {s : State} (h : RamOk s) (i : Site) (r : LinkRequest) (b : Byte) (d : List Byte) : RamOk (goodResponse s i r b d) := by
  unfold goodResponse
  try dsimp only
  repeat' split
  all_goals simp (maxDischargeDepth := 12) [h]

@[simp] theorem testResponse_ok {s : State} (h : RamOk s) (i : Site) (b : Byte) : RamOk (testResponse s i b) := by
  unfold testResponse
  try dsimp only
  repeat' split
  all_goals simp (maxDischargeDepth := 12) [h]

@[simp] theorem judgeResponse_ok {s : State} (h : RamOk s) (i : Site) (r : LinkRequest) (d : List Byte) : RamOk (judgeResponse s i r d) := by
  unfold judgeResponse
  try dsimp only
  repeat' split
  all_goals simp (maxDischargeDepth := 12) [h]

/-! ## Rail controller -/

@[simp] theorem grant_ok (s : State) (i : Site) (n : Nat) : RamOk (grant s i n) ↔ RamOk s := by simp [ramOk_iff]

@[simp] theorem scanSite_ok (s : State) (i : Site) : RamOk (scanSite s i) ↔ RamOk s := by simp [ramOk_iff]

@[simp] theorem scan_ok (s : State) : RamOk (scan s) ↔ RamOk s := by simp [ramOk_iff]

@[simp] theorem stopPulse_ok (s : State) (i : Site) : RamOk (stopPulse s i) ↔ RamOk s := by simp [ramOk_iff]

@[simp] theorem decideHold_ok (s : State) : RamOk (decideHold s) ↔ RamOk s := by simp [ramOk_iff]

/-! ## Status mirror writer -/

@[simp] theorem beginMirrorWrite_ok {s : State} (h : RamOk s) : RamOk (beginMirrorWrite s) := by
  unfold beginMirrorWrite
  try dsimp only
  repeat' split
  all_goals simp (maxDischargeDepth := 12) [h]

@[simp] theorem triggerMirror_ok {s : State} (h : RamOk s) : RamOk (triggerMirror s) := by
  unfold triggerMirror
  try dsimp only
  repeat' split
  all_goals simp (maxDischargeDepth := 12) [h]

theorem writeGroups_wf {m : Memory} (h : m.wf) (e : BitVec 35) (olds news : List (Nat × List Word)) (g : Nat) :
    (writeGroups m e olds news g).wf := by
  induction news generalizing m olds g with
  | nil => cases olds <;> exact h
  | cons new news ih =>
    cases olds with
    | nil => exact ih (writeWords_wf h _ _) _ _
    | cons old olds => exact ih (writeWords_wf h _ _) _ _

@[simp] theorem endMirrorWrite_ok {s : State} (h : RamOk s) (e : BitVec 35) : RamOk (endMirrorWrite s e) := by
  unfold endMirrorWrite
  rw [setMirror_ok]
  exact writeRam_ok (ramOk_iff _ |>.mpr (writeGroups_wf h _ _ _ _)) _ _

/-! ## Requests -/

@[simp] theorem accept_ok (s : State) : RamOk (accept s) ↔ RamOk s := by simp [ramOk_iff]

@[simp] theorem answer_ok {s : State} (h : RamOk s) (c : AnswerCode) (d : Word) (ws : List Word) : RamOk (answer s c d ws) := by
  unfold answer
  try dsimp only
  repeat' split
  all_goals simp (maxDischargeDepth := 12) [h]

@[simp] theorem answerAtOnce_ok {s : State} (h : RamOk s) (c : AnswerCode) (d : Word) : RamOk (answerAtOnce s c d) := by
  unfold answerAtOnce
  try dsimp only
  all_goals simp (maxDischargeDepth := 12) [h]

@[simp] theorem openLot_ok {s : State} (h : RamOk s) : RamOk (openLot s) := by
  unfold openLot
  try dsimp only
  repeat' split
  all_goals simp (maxDischargeDepth := 12) [h]

@[simp] theorem closingSteps_ok {s : State} (h : RamOk s) : RamOk (closingSteps s) := by
  unfold closingSteps
  try dsimp only
  all_goals simp (maxDischargeDepth := 12) [h]

@[simp] theorem closeLot_ok {s : State} (h : RamOk s) : RamOk (closeLot s) := by
  unfold closeLot
  try dsimp only
  repeat' split
  all_goals simp (maxDischargeDepth := 12) [h]

@[simp] theorem spoilIndex_ok {s : State} (h : RamOk s) : RamOk (spoilIndex s) := by
  unfold spoilIndex
  try dsimp only
  repeat' split
  all_goals simp (maxDischargeDepth := 12) [h]

@[simp] theorem listResume_ok {s : State} (h : RamOk s) : RamOk (listResume s) := by
  unfold listResume
  try dsimp only
  repeat' split
  all_goals simp (maxDischargeDepth := 12) [h]

@[simp] theorem validateProfile_ok {s : State} (h : RamOk s) : RamOk (validateProfile s) := by
  unfold validateProfile
  try dsimp only
  repeat' split
  all_goals simp (maxDischargeDepth := 12) [h]

@[simp] theorem loadSecret_ok {s : State} (h : RamOk s) : RamOk (loadSecret s) := by
  unfold loadSecret
  try dsimp only
  repeat' split
  all_goals simp (maxDischargeDepth := 12) [h]

@[simp] theorem sealSecret_ok {s : State} (h : RamOk s) : RamOk (sealSecret s) := by
  unfold sealSecret
  try dsimp only
  repeat' split
  all_goals simp (maxDischargeDepth := 12) [h]

@[simp] theorem interruptWorking_ok (s : State) (r : InterruptReason) : RamOk (interruptWorking s r) ↔ RamOk s := by simp [ramOk_iff]

@[simp] theorem abortTouchdown_ok {s : State} (h : RamOk s) : RamOk (abortTouchdown s) := by
  unfold abortTouchdown
  try dsimp only
  repeat' split
  all_goals simp (maxDischargeDepth := 12) [h]

@[simp] theorem zeroCounters_ok (s : State) : RamOk (zeroCounters s) ↔ RamOk s := by simp [ramOk_iff]

@[simp] theorem clearCounters_ok {s : State} (h : RamOk s) : RamOk (clearCounters s) := by
  unfold clearCounters
  try dsimp only
  all_goals simp (maxDischargeDepth := 12) [h]

@[simp] theorem carryOut_ok {s : State} (h : RamOk s) (c : Word) : RamOk (carryOut c s) := by
  unfold carryOut
  try dsimp only
  repeat' split
  all_goals simp (maxDischargeDepth := 12) [h]

@[simp] theorem examineOnce_ok {s : State} (h : RamOk s) : RamOk (examineOnce s) := by
  unfold examineOnce
  try dsimp only
  repeat' split
  all_goals simp (maxDischargeDepth := 12) [h]

@[simp] theorem reexamine_ok {s : State} (h : RamOk s) : RamOk (reexamine s) := by
  unfold reexamine
  try dsimp only
  repeat' split
  all_goals simp (maxDischargeDepth := 12) [h]

@[simp] theorem examine_ok {s : State} (h : RamOk s) : RamOk (examine s) := by
  unfold examine
  try dsimp only
  repeat' split
  all_goals simp (maxDischargeDepth := 12) [h]

@[simp] theorem notifyUnit_ok {s : State} (h : RamOk s) : RamOk (notifyUnit s) := by
  unfold notifyUnit
  try dsimp only
  repeat' split
  all_goals simp (maxDischargeDepth := 12) [h]

@[simp] theorem examineIfPending_ok {s : State} (h : RamOk s) : RamOk (examineIfPending s) := by
  unfold examineIfPending
  try dsimp only
  repeat' split
  all_goals simp (maxDischargeDepth := 12) [h]

/-! ## Touchdown controller -/

@[simp] theorem closeIfDraining_ok {s : State} (h : RamOk s) : RamOk (closeIfDraining s) := by
  unfold closeIfDraining
  try dsimp only
  repeat' split
  all_goals simp (maxDischargeDepth := 12) [h]

@[simp] theorem beginTouchdown_ok (s : State) : RamOk (beginTouchdown s) ↔ RamOk s := by simp [ramOk_iff]

@[simp] theorem takeRise_ok (s : State) : RamOk (takeRise s) ↔ RamOk s := by simp [ramOk_iff]

@[simp] theorem bounce_ok {s : State} (h : RamOk s) : RamOk (bounce s) := by
  unfold bounce
  try dsimp only
  all_goals simp (maxDischargeDepth := 12) [h]

@[simp] theorem fallInActive_ok (s : State) : RamOk (fallInActive s) ↔ RamOk s := by simp [ramOk_iff]

@[simp] theorem takeFall_ok {s : State} (h : RamOk s) : RamOk (takeFall s) := by
  unfold takeFall
  try dsimp only
  repeat' split
  all_goals simp (maxDischargeDepth := 12) [h]

@[simp] theorem startSite_ok {s : State} (h : RamOk s) (e : Site → PlanEntry) (l : SiteSet) (i : Site) : RamOk (startSite e l s i) := by
  unfold startSite
  try dsimp only
  repeat' split
  all_goals simp (maxDischargeDepth := 12) [h]

@[simp] theorem takeFrame_ok {s : State} (h : RamOk s) (f : Fin 2) : RamOk (takeFrame s f) := by
  unfold takeFrame
  try dsimp only
  all_goals simp (maxDischargeDepth := 12) [h]

@[simp] theorem noPlan_ok {s : State} (h : RamOk s) : RamOk (noPlan s) := by
  unfold noPlan
  try dsimp only
  all_goals simp (maxDischargeDepth := 12) [h]

@[simp] theorem considerFrame_ok {s : State} (h : RamOk s) (l : SiteSet) : RamOk (considerFrame s l) := by
  unfold considerFrame
  dsimp only
  split
  · exact forSites_inv RamOk (fun s i h => startSite_ok h _ _ i) _ _ (takeFrame_ok h _)
  · exact noPlan_ok h

@[simp] theorem writeFinish_ok {s : State} (h : RamOk s) (f : Fin 2) : RamOk (writeFinish s f) := by
  unfold writeFinish
  try dsimp only
  all_goals simp (maxDischargeDepth := 12) [h]

@[simp] theorem answerAbort_ok {s : State} (h : RamOk s) (f : Fin 2) : RamOk (answerAbort s f) := by
  unfold answerAbort
  try dsimp only
  repeat' split
  all_goals simp (maxDischargeDepth := 12) [h]

@[simp] theorem leaveActive_ok (s : State) : RamOk (leaveActive s) ↔ RamOk s := by simp [ramOk_iff]

@[simp] theorem finishFrame_ok {s : State} (h : RamOk s) (f : Fin 2) : RamOk (finishFrame s f) := by
  unfold finishFrame
  try dsimp only
  repeat' split
  all_goals simp (maxDischargeDepth := 12) [h]

/-! ## Resets -/

@[simp] theorem discardRequest_ok {s : State} (h : RamOk s) : RamOk (discardRequest s) := by
  unfold discardRequest
  try dsimp only
  all_goals simp (maxDischargeDepth := 12) [h]

@[simp] theorem takeInFlight_ok (s : State) (i : Site) : RamOk (takeInFlight s i) ↔ RamOk s := by simp [ramOk_iff]

@[simp] theorem giveUpFresh_ok (s : State) (i : Site) : RamOk (giveUpFresh s i) ↔ RamOk s := by simp [ramOk_iff]

@[simp] theorem resetClosure_ok {s : State} (h : RamOk s) (o : List Site) : RamOk (resetClosure s o) := by
  have h1 (l : List Site) {s : State} (h : RamOk s) : RamOk (forSites l takeInFlight s) :=
    forSites_inv RamOk (fun s i h => (takeInFlight_ok s i).mpr h) _ _ h
  have h2 (l : List Site) {s : State} (h : RamOk s) : RamOk (forSites l giveUpFresh s) :=
    forSites_inv RamOk (fun s i h => (giveUpFresh_ok s i).mpr h) _ _ h
  unfold resetClosure
  dsimp only
  split
  · exact h
  · simp (maxDischargeDepth := 12) [h, h1, h2]

@[simp] theorem resetStepThree_ok {s : State} (h : RamOk s) : RamOk (resetStepThree s) := by
  unfold resetStepThree
  exact ramOk_of_eq (zeroRam_ok (writeRam_ok (writeRam_ok h _ _) _ _) _ _) rfl

@[simp] theorem resetStepOne_ok {s : State} (h : RamOk s) : RamOk (resetStepOne s) := by
  unfold resetStepOne
  exact ramOk_of_eq (discardRequest_ok h) (by simp)

end Sys2Proof.Machine
end

