-- ==== Sys2Proof/Laws/Regions.lean ====
section
/-!
SUPPORT. Reads of the exchange RAM of a state after the part's writes, and what a write leaves alone.
-/

namespace Sys2Proof.Machine

/-! ## Reads after writes -/

theorem readRam_writeRam {s : State} (h : RamOk s) {a : Nat} (ha : a + 4 ≤ Config.ramBytes) (w : Word) :
    readRam (writeRam s a w) a = w := readWord_writeWord h ha w

theorem readRam_writeRam_of_out {s : State} (h : RamOk s) {a b : Nat} (hab : b + 4 ≤ a ∨ a + 4 ≤ b) (w : Word) :
    readRam (writeRam s a w) b = readRam s b := readWord_writeWord_of_out h hab w

theorem readRam_writeRamWords_in {s : State} (h : RamOk s) {a k : Nat} {ws : List Word} (hk : k < ws.length)
    (ha : a + 4 * ws.length ≤ Config.ramBytes) : readRam (writeRamWords s a ws) (a + 4 * k) = ws[k] :=
  readWord_writeWords_in h hk ha

/-- As `readRam_writeRamWords_in` at an address that is given as a whole. -/
theorem readRam_writeRamWords_at {s : State} (h : RamOk s) {a b : Nat} {ws : List Word} (k : Nat) (hb : b = a + 4 * k)
    (hk : k < ws.length) (ha : a + 4 * ws.length ≤ Config.ramBytes) : readRam (writeRamWords s a ws) b = ws[k] := by
  subst hb
  exact readRam_writeRamWords_in h hk ha

theorem readRam_writeRamWords_of_out {s : State} (h : RamOk s) {a b : Nat} {ws : List Word}
    (hab : b + 4 ≤ a ∨ a + 4 * ws.length ≤ b) : readRam (writeRamWords s a ws) b = readRam s b :=
  readWord_writeWords_of_out h hab

theorem readRam_zeroRam_in {s : State} {base len a : Nat} (h1 : base ≤ a) (h2 : a + 4 ≤ base + len) :
    readRam (zeroRam s base len) a = 0 := readWord_zeroRange_in h1 h2

theorem readRam_zeroRam_of_out {s : State} {base len a : Nat} (h : a + 4 ≤ base ∨ base + len ≤ a) :
    readRam (zeroRam s base len) a = readRam s a := readWord_zeroRange_of_out h

/-- A word reads as before where its four bytes do. -/
theorem readRam_congr {s t : State} {a : Nat} (h : ∀ k, k < 4 → readByte t.ram (a + k) = readByte s.ram (a + k)) :
    readRam t a = readRam s a := by
  have h0 := h 0 (by omega)
  rw [Nat.add_zero] at h0
  rw [readRam, readRam, readWord, readWord, h 3 (by omega), h 2 (by omega), h 1 (by omega), h0]

/-- A word outside the ranges that a change is confined to reads as before. -/
theorem readRam_of_ramOutside {s t : State} {ranges : List (Nat × Nat)} (h : ramOutside s t ranges) {a : Nat}
    (ha : ∀ r ∈ ranges, a + 4 ≤ r.1 ∨ r.1 + r.2 ≤ a) : readRam t a = readRam s a := by
  refine readRam_congr fun k hk => h _ fun r hr => ?_
  have := ha r hr
  omega

/-- The bytes of a word that reads 0 are 0. -/
theorem readByte_of_readRam_zero {s : State} {a : Nat} (h : readRam s a = 0) {k : Nat} (hk : k < 4) :
    readByte s.ram (a + k) = 0 := by
  rw [readRam, readWord] at h
  have hb : ∀ i, (readByte s.ram (a + 3) ++ (readByte s.ram (a + 2) ++ (readByte s.ram (a + 1) ++ readByte s.ram a))).getLsbD i
      = false := by rw [h]; simp
  apply BitVec.eq_of_getLsbD_eq
  intro j hj
  have hbk := hb (8 * k + j)
  simp only [BitVec.getLsbD_append] at hbk
  obtain rfl | rfl | rfl | rfl : k = 0 ∨ k = 1 ∨ k = 2 ∨ k = 3 := by omega
  · rw [if_pos (by omega), if_pos (by omega), if_pos (by omega)] at hbk
    simpa using hbk
  · rw [if_pos (by omega), if_pos (by omega), if_neg (by omega)] at hbk
    rw [show 8 * 1 + j - 8 = j from by omega] at hbk
    simpa using hbk
  · rw [if_pos (by omega), if_neg (by omega)] at hbk
    rw [show 8 * 2 + j - (8 + 8) = j from by omega] at hbk
    simpa using hbk
  · rw [if_neg (by omega)] at hbk
    rw [show 8 * 3 + j - (8 + (8 + 8)) = j from by omega] at hbk
    simpa using hbk

/-! ## What a write leaves alone -/

theorem ramOutside_refl {s t : State} (h : t.ram = s.ram) (ranges : List (Nat × Nat)) : ramOutside s t ranges := by
  intro a _
  rw [h]

theorem ramOutside_trans {s t u : State} {ranges : List (Nat × Nat)} (h : ramOutside s t ranges)
    (g : ramOutside t u ranges) : ramOutside s u ranges := fun a ha => (g a ha).trans (h a ha)

/-- A change confined to some ranges is confined to any that cover them. -/
theorem ramOutside_mono {s t : State} {ranges wider : List (Nat × Nat)} (h : ramOutside s t ranges)
    (g : ∀ a, (∀ r ∈ wider, a < r.1 ∨ r.1 + r.2 ≤ a) → ∀ r ∈ ranges, a < r.1 ∨ r.1 + r.2 ≤ a) : ramOutside s t wider :=
  fun a ha => h a (g a ha)

/-- Only the exchange RAM of the two states matters. -/
theorem ramOutside_congr {s t s' t' : State} {ranges : List (Nat × Nat)} (h : ramOutside s t ranges) (hs : s'.ram = s.ram)
    (ht : t'.ram = t.ram) : ramOutside s' t' ranges := by
  intro a ha
  rw [hs, ht]
  exact h a ha

theorem ramOutside_writeRam {s : State} (h : RamOk s) (a : Nat) (w : Word) : ramOutside s (writeRam s a w) [(a, 4)] := by
  intro b hb
  exact readByte_writeWord_of_out h (hb (a, 4) (by simp)) w

theorem ramOutside_writeRamWords {s : State} (h : RamOk s) (a : Nat) (ws : List Word) :
    ramOutside s (writeRamWords s a ws) [(a, 4 * ws.length)] := by
  intro b hb
  exact readByte_writeWords_of_out h (hb (a, 4 * ws.length) (by simp))

theorem ramOutside_zeroRam (s : State) (base len : Nat) : ramOutside s (zeroRam s base len) [(base, len)] := by
  intro b hb
  have := hb (base, len) (by simp)
  exact (readByte_zeroRange s.ram base len b).trans (if_neg (by simp only at this; omega))

end Sys2Proof.Machine
end

