-- ==== Sys2Proof/Laws/Sites.lean ====
section
/-!
SUPPORT. What the shared operations of a site channel do, each said once in the vocabulary of the claims: finishing, ending a
die, reporting, and disposing of an index.
-/

namespace Sys2Proof.Machine

/-! ## The record -/

/-- A result record lies in its frame, and in the exchange RAM. -/
theorem atRecord_bounds (f : Fin 2) (i : Site) : atFrame f + 0x200 ≤ atRecord f i ∧ atRecord f i + 64 ≤ atFrame f + 0x600 ∧
    atFrame f + 0x600 ≤ 0x2600 := by
  have := f.isLt
  have := i.isLt
  simp only [atRecord, atFrame]
  omega

theorem presentFlag_getLsbD (k j : Nat) (b : Bool) (hj : j < 32) :
    (presentFlag k b).getLsbD j = (b && decide (j = k)) := by
  unfold presentFlag
  cases b
  · simp
  · simp only [if_true, Bool.true_and, BitVec.getLsbD_twoPow]
    by_cases h : j = k
    · subst h; simp [hj]
    · have h' : k ≠ j := fun e => h e.symm
      simp [h, h']

theorem recordWords_length (c : SiteChannel) (cause : Option SpoilCause) : (recordWords c cause).length = 15 := rfl

/-- The first word of the record that `writeRecord` writes. -/
theorem readRam_writeRecord_head {s : State} (h : RamOk s) (i : Site) (d : Disposition) (cause : Option SpoilCause)
    {f : Fin 2} (hf : s.touchdown.activeFrame = some f) :
    readRam (writeRecord s i d cause) (atRecord f i) = recordHead (channelOf s i) d cause := by
  have hb := atRecord_bounds f i
  unfold writeRecord
  rw [hf]
  dsimp only
  rw [readRam_writeRam (writeRamWords_ok h _ _) (by simp only [Config.ramBytes]; omega)]

/-- The later words of the record that `writeRecord` writes. -/
theorem readRam_writeRecord_word {s : State} (h : RamOk s) (i : Site) (d : Disposition) (cause : Option SpoilCause)
    {f : Fin 2} (hf : s.touchdown.activeFrame = some f) (k : Nat) (hk : k < 15) :
    readRam (writeRecord s i d cause) (atRecord f i + 4 + 4 * k) =
      (recordWords (channelOf s i) cause)[k]'(by rw [recordWords_length]; exact hk) := by
  have hb := atRecord_bounds f i
  have hlen := recordWords_length (channelOf s i) cause
  unfold writeRecord
  rw [hf]
  dsimp only
  rw [readRam_writeRam_of_out (writeRamWords_ok h _ _) (by omega)]
  exact readRam_writeRamWords_in h (by omega) (by simp only [Config.ramBytes]; omega)

/-- The record that `writeRecord` writes, field by field. -/
theorem writeRecord_writes {s : State} (h : RamOk s) (i : Site) (d : Disposition) (cause : Option SpoilCause) :
    recordWritten (writeRecord s i d cause) i (channelOf s i) d cause := by
  intro f r keyed hf hr hk
  have hb := atRecord_bounds f i
  have hs : s.touchdown.activeFrame = some f := by simpa using hf
  have hrr : r = atRecord f i := by subst hr; simp only [atRecord, atFrame]; omega
  subst hrr
  have word := readRam_writeRecord_word h i d cause hs
  have hkey : hasKeyTag (channelOf s i) = keyed := by
    rw [hk, hasKeyTag]
    by_cases ha : (channelOf s i).outcome = some .provisioned <;> by_cases hb : (channelOf s i).outcome = some .resumed <;>
      simp [ha, hb]
  refine ⟨?_, ?_, ?_, ?_, ?_, ?_, ?_, ?_, ?_, ?_, ?_, ?_, ?_⟩
  · rw [readRam_writeRecord_head h i d cause hs]
    have := recordHead_fields (channelOf s i) d cause
    exact ⟨this.1, this.2.1, this.2.2.1⟩
  · intro k hk6
    have h0 := word 0 (by omega)
    rw [Nat.mul_zero, Nat.add_zero] at h0
    rw [h0]
    show (presentFlag 0 _ ||| presentFlag 1 _ ||| presentFlag 2 _ ||| presentFlag 3 _ ||| presentFlag 4 _ |||
      presentFlag 5 _).getLsbD k = _
    simp only [BitVec.getLsbD_or, presentFlag_getLsbD _ _ _ (Nat.lt_trans hk6 (by decide : 6 < 32))]
    rw [hkey]
    obtain rfl | rfl | rfl | rfl | rfl | rfl : k = 0 ∨ k = 1 ∨ k = 2 ∨ k = 3 ∨ k = 4 ∨ k = 5 := by omega
    all_goals simp
  · exact word 1 (by omega)
  · rw [word 2 (by omega)]
    show natWord ((channelOf s i).figures.readbackBinding.getD (0, 0)).1 = _
    cases (channelOf s i).figures.readbackBinding <;> rfl
  · rw [word 3 (by omega)]
    show (((channelOf s i).figures.readbackBinding.getD (0, 0)).2.setWidth 32).extractLsb' 0 8 = _
    cases (channelOf s i).figures.readbackBinding with
    | none => rfl
    | some b => exact BitVec.eq_of_getLsbD_eq fun k hk => by simp [hk, show k < 32 by omega]
  · exact word 4 (by omega)
  · exact word 5 (by omega)
  · exact word 6 (by omega)
  · rw [word 7 (by omega)]
    show BitVec.extractLsb' 0 8 (if hasKeyTag (channelOf s i) then _ else _) = _ ∧
      BitVec.extractLsb' 8 8 (if hasKeyTag (channelOf s i) then _ else _) = _
    rw [hkey]
    cases keyed with
    | false => exact ⟨by simp, by simp⟩
    | true =>
      have := keyTagWord_fields (keyTagCheck ((channelOf s i).target.getD 0)) (keyTagPolarity ((channelOf s i).target.getD 0))
      exact ⟨this.1, this.2.1⟩
  · exact word 8 (by omega)
  · exact word 9 (by omega)
  · rw [word 10 (by omega)]
    show natWord ((channelOf s i).figures.imageLocked.getD false).toNat = _
    cases (channelOf s i).figures.imageLocked with
    | none => rfl
    | some b => cases b <;> rfl
  · intro k h1 h2
    have hz : ∀ j, j < 4 → readRam (writeRecord s i d cause) (atRecord f i + 4 + 4 * (11 + j)) = 0 := by
      intro j hj
      rw [word (11 + j) (by omega)]
      match j, hj with
      | 0, _ => rfl
      | 1, _ => rfl
      | 2, _ => rfl
      | 3, _ => rfl
    have := readByte_of_readRam_zero (hz ((k - 48) / 4) (by omega)) (k := k % 4) (by omega)
    rw [← this]
    congr 1
    omega

/-- `writeRecord` writes 0 into the bits that the layout does not name (notes/assumptions/28.md). -/
theorem writeRecord_rest {s : State} (h : RamOk s) (i : Site) (d : Disposition) (cause : Option SpoilCause) :
    recordRestZero (writeRecord s i d cause) i := by
  intro f r hf hr
  have hs : s.touchdown.activeFrame = some f := by simpa using hf
  have hrr : r = atRecord f i := by subst hr; simp only [atRecord, atFrame]; omega
  subst hrr
  have word := readRam_writeRecord_word h i d cause hs
  refine ⟨?_, ?_, ?_, ?_⟩
  · rw [readRam_writeRecord_head h i d cause hs]
    exact (recordHead_fields (channelOf s i) d cause).2.2.2
  · have h0 := word 0 (by omega)
    rw [Nat.mul_zero, Nat.add_zero] at h0
    rw [h0]
    refine BitVec.eq_of_getLsbD_eq fun k hk => ?_
    show (BitVec.extractLsb' 6 26 (presentFlag 0 _ ||| presentFlag 1 _ ||| presentFlag 2 _ ||| presentFlag 3 _ |||
      presentFlag 4 _ ||| presentFlag 5 _)).getLsbD k = _
    rw [BitVec.getLsbD_extractLsb']
    simp only [BitVec.getLsbD_or, presentFlag_getLsbD _ _ _ (by omega : 6 + k < 32)]
    have g (j : Nat) (hj : j < 6) : decide (6 + k = j) = false := by simp; omega
    simp [g 1 (by decide), g 2 (by decide), g 3 (by decide), g 4 (by decide), g 5 (by decide)]
  · rw [word 3 (by omega)]
    show (((channelOf s i).figures.readbackBinding.getD (0, 0)).2.setWidth 32).extractLsb' 8 24 = _
    refine BitVec.eq_of_getLsbD_eq fun k hk => ?_
    simp
  · rw [word 7 (by omega)]
    show BitVec.extractLsb' 16 16 (if hasKeyTag (channelOf s i) then _ else _) = _
    split
    · exact (keyTagWord_fields _ _).2.2
    · rfl

/-- The unnamed bits of a record are of the exchange RAM and the active frame alone. -/
theorem recordRestZero_congr {t t' : State} {i : Site} (h : recordRestZero t i) (hr : t'.ram = t.ram)
    (ha : t'.touchdown.activeFrame = t.touchdown.activeFrame) : recordRestZero t' i := by
  intro f r hf hr'
  have := h f r (ha ▸ hf) hr'
  unfold readRam at this ⊢
  rw [hr]
  exact this

/-- `writeRecord` touches only the record's bytes. -/
theorem writeRecord_outside {s : State} (h : RamOk s) (i : Site) (d : Disposition) (cause : Option SpoilCause) :
    ramOutside s (writeRecord s i d cause) [recordBytes s i] := by
  unfold writeRecord recordBytes
  cases s.touchdown.activeFrame with
  | none => exact ramOutside_refl rfl _
  | some f =>
    have h1 := writeRamWords_ok h (atRecord f i + 4) (recordWords (channelOf s i) cause)
    have g1 := ramOutside_writeRamWords h (atRecord f i + 4) (recordWords (channelOf s i) cause)
    have g2 := ramOutside_writeRam h1 (atRecord f i) (recordHead (channelOf s i) d cause)
    refine ramOutside_trans (ramOutside_mono g1 ?_) (ramOutside_mono g2 ?_)
    all_goals
      intro a ha r hr
      have := ha _ (List.mem_singleton.mpr rfl)
      rw [List.mem_singleton] at hr
      subst hr
      simp only [recordWords_length, atRecord, atFrame] at this ⊢
      omega

/-- A change that misses a site's plan entry leaves the coordinates that it holds. -/
theorem planCoordinates_of_ramOutside {s t : State} {ranges : List (Nat × Nat)} (h : ramOutside s t ranges) {f : Fin 2}
    {i : Site} (hr : ∀ r ∈ ranges, atPlanEntry f i + 12 ≤ r.1 ∨ r.1 + r.2 ≤ atPlanEntry f i + 4) :
    planCoordinates t f i = planCoordinates s f i := by
  have word {k : Nat} (h1 : 4 ≤ k) (h2 : k ≤ 8) : readRam t (atPlanEntry f i + k) = readRam s (atPlanEntry f i + k) :=
    readRam_of_ramOutside h fun r hm => by
      have := hr r hm
      omega
  simp only [planCoordinates, readPlanEntry]
  rw [word (by omega) (by omega), word (by omega) (by omega)]

/-- A record misses every plan entry. -/
theorem recordBytes_miss_planEntries (s : State) (i : Site) (f : Fin 2) (j : Site) :
    ∀ r ∈ [recordBytes s i], atPlanEntry f j + 12 ≤ r.1 ∨ r.1 + r.2 ≤ atPlanEntry f j + 4 := by
  intro r hr
  rw [List.mem_singleton] at hr
  subst hr
  have := j.isLt
  have := f.isLt
  unfold recordBytes
  simp only [atPlanEntry, atFrame]
  cases s.touchdown.activeFrame with
  | none => exact .inr (by dsimp only; omega)
  | some g =>
    have := g.isLt
    have := i.isLt
    dsimp only
    omega

/-- A record is of the exchange RAM and the active frame alone. -/
theorem recordWritten_congr {t t' : State} {i : Site} {c : SiteChannel} {d : Disposition} {cause : Option SpoilCause}
    (h : recordWritten t i c d cause) (hr : t'.ram = t.ram) (ha : t'.touchdown.activeFrame = t.touchdown.activeFrame) :
    recordWritten t' i c d cause := by
  intro f r keyed hf hr' hk
  have := h f r keyed (ha ▸ hf) hr' hk
  unfold readRam at this ⊢
  rw [hr]
  exact this

/-! ## Finishing -/

/-- `finish` finishes the site from the channel it finds. -/
theorem finish_finishes {s : State} (h : RamOk s) (i : Site) (d : Disposition) (cause : Option SpoilCause) :
    siteFinished s (finish s i d cause) i (channelOf s i) d cause := by
  refine ⟨?_, ?_, ?_⟩
  · simp [finish, modifyChannel, channelOf, setChannel, notedCoordinates]
  · exact recordWritten_congr (writeRecord_writes h i d cause) rfl rfl
  · exact ramOutside_congr (writeRecord_outside h i d cause) rfl rfl

/-- `finish` writes 0 into the bits of the record that the layout does not name (notes/assumptions/28.md). -/
theorem finish_rest {s : State} (h : RamOk s) (i : Site) (d : Disposition) (cause : Option SpoilCause) :
    recordRestZero (finish s i d cause) i := recordRestZero_congr (writeRecord_rest h i d cause) rfl rfl

/-- `finish` leaves the other sites. -/
theorem finish_sitesElse (s : State) (i : Site) (d : Disposition) (cause : Option SpoilCause) :
    sitesElse s (finish s i d cause) i := by
  intro j hj
  rw [finish, channelOf_modifyChannel_ne _ _ _ _ hj]
  simp [channelOf]

/-- The base state of a finish may differ in its channels and blocks, not in its exchange RAM and active frame. -/
theorem siteFinished_congr {s s' t : State} {i : Site} {c : SiteChannel} {d : Disposition} {cause : Option SpoilCause}
    (h : siteFinished s t i c d cause) (hr : s'.ram = s.ram) (ha : s'.touchdown.activeFrame = s.touchdown.activeFrame) :
    siteFinished s' t i c d cause := by
  refine ⟨by rw [ha]; exact h.1, h.2.1, ?_⟩
  have hrec : recordBytes s' i = recordBytes s i := by unfold recordBytes; rw [ha]
  rw [hrec]
  exact ramOutside_congr h.2.2 hr rfl

/-- `endDie` ends the die with the outcome and no index. -/
theorem endDie_ends {s : State} (h : RamOk s) (i : Site) (o : Outcome) (d : Disposition) :
    diedWith s (endDie s i o d) i (channelOf s i) o d := by
  have := finish_finishes (s := modifyChannel s i fun c => { c with outcome := some o }) ((modifyChannel_ok _ _ _).mpr h) i d
    none
  rw [show channelOf (modifyChannel s i fun c => { c with outcome := some o }) i = { channelOf s i with outcome := some o } by
    simp [modifyChannel, channelOf, setChannel]] at this
  exact siteFinished_congr this rfl rfl

theorem endDie_sitesElse (s : State) (i : Site) (o : Outcome) (d : Disposition) : sitesElse s (endDie s i o d) i := by
  intro j hj
  unfold endDie
  rw [finish_sitesElse _ i d none j hj, channelOf_modifyChannel_ne _ _ _ _ hj]

/-- `reportOutcome` sends the report with the outcome. -/
theorem reportOutcome_reports (s : State) (i : Site) (o : Outcome) (r : Report) :
    reported s (reportOutcome s i o r) i (channelOf s i) o r := by
  refine ⟨rfl, ?_⟩
  simp [reportOutcome, modifyChannel]

/-- `spoilAt` reports a spoil with its failing position. -/
theorem spoilAt_reports (s : State) (i : Site) (o : Outcome) (cause : SpoilCause) (p : Option Nat) :
    reported s (spoilAt s i o cause p) i
      { channelOf s i with figures := { (channelOf s i).figures with failingPosition := p } } o (.spoil cause) := by
  refine ⟨rfl, ?_⟩
  simp [spoilAt, reportOutcome, modifyChannel]

/-! ## The lot check -/

/-- `lotCheck` ends the die with no lot, and otherwise takes the lot values and names the IDENT (R92, R93). -/
theorem lotCheck_checks {s : State} (h : RamOk s) (i : Site) :
    (s.lot.state = .noLot → diedWith s (lotCheck s i) i (channelOf s i) .noLot .none) ∧
      (s.lot.state ≠ .noLot →
        (lotCheck s i).ram = s.ram ∧
          channelOf (lotCheck s i) i =
            { withLotValues (channelOf s i) s.lot.profile with activity := .naming .ident }) := by
  refine ⟨fun hl => ?_, fun hl => ?_⟩
  · rw [lotCheck, if_pos hl]
    exact endDie_ends h i .noLot .none
  · rw [lotCheck, if_neg hl]
    exact ⟨rfl, by simp [modifyChannel]⟩

/-- `lotCheck` leaves the other sites. -/
theorem lotCheck_sitesElse (s : State) (i : Site) : sitesElse s (lotCheck s i) i := by
  unfold lotCheck
  split
  · exact endDie_sitesElse s i _ _
  · exact fun j hj => channelOf_modifyChannel_ne _ _ _ _ hj

/-! ## Disposing of an index -/

/-- The decision of R111, as the model computes it. -/
theorem reportDecision_decides (c : SiteChannel) : decided c (reportDecision c) := by
  refine ⟨fun h => by simp [reportDecision, h], fun b hb => ⟨fun hk => ?_, fun hk hp => ?_, fun hk hp hx => ?_, fun hk hp hx => ?_⟩⟩
  · simp [reportDecision, hb, hk]
  · simp [reportDecision, hb, hk, hp]
  · obtain ⟨p, hp1, hp2⟩ := hx
    have : bindingComplete c.remaining = false := by
      rw [Bool.eq_false_iff]
      intro hc
      have := List.all_eq_true.mp hc p hp1
      simp only [decide_eq_true_eq] at this
      omega
    simp [reportDecision, hb, hk, hp, this]
  · have : bindingComplete c.remaining = true := by
      rw [bindingComplete, List.all_eq_true]
      intro p hp
      simpa using hx p hp
    simp [reportDecision, hb, hk, hp, this]

/-- `sendOwed` sends what the channel owes, or finishes. -/
theorem sendOwed_sends {s : State} (h : RamOk s) (i : Site) : owedSent s (sendOwed s i) i (channelOf s i) := by
  refine ⟨fun ho => ?_, fun r ho => ?_⟩
  · unfold sendOwed
    rw [ho]
    exact finish_finishes h i .none none
  · unfold sendOwed
    rw [ho]
    exact ⟨rfl, by simp [modifyChannel]⟩

theorem sendOwed_sitesElse (s : State) (i : Site) : sitesElse s (sendOwed s i) i := by
  unfold sendOwed
  cases (channelOf s i).owed with
  | none => exact finish_sitesElse s i _ _
  | some r => exact fun j hj => channelOf_modifyChannel_ne _ _ _ _ hj

/-- As `siteFinished_congr` for what is owed. -/
theorem owedSent_congr {s s' t : State} {i : Site} {c : SiteChannel} (h : owedSent s t i c) (hr : s'.ram = s.ram)
    (ha : s'.touchdown.activeFrame = s.touchdown.activeFrame) : owedSent s' t i c :=
  ⟨fun ho => siteFinished_congr (h.1 ho) hr ha, fun r ho => ⟨(h.2 r ho).1.trans hr.symm, (h.2 r ho).2⟩⟩

/-- As `siteFinished_congr` for an index that is disposed of. -/
theorem disposed_congr {s s' t : State} {i : Site} {c : SiteChannel} (h : disposed s t i c) (hr : s'.ram = s.ram)
    (ha : s'.touchdown.activeFrame = s.touchdown.activeFrame) : disposed s' t i c := by
  obtain ⟨r, hd, hc⟩ := h
  refine ⟨r, hd, fun d hdd => ⟨fun hx => ?_, fun hx => owedSent_congr ((hc d hdd).2 hx) hr ha⟩⟩
  exact ⟨((hc d hdd).1 hx).1.trans hr.symm, ((hc d hdd).1 hx).2⟩

/-- `dispose` disposes of the index of the channel it finds. -/
theorem dispose_disposes {s : State} (h : RamOk s) (i : Site) : disposed s (dispose s i) i (channelOf s i) := by
  refine ⟨_, reportDecision_decides _, fun d hd => ⟨fun hx => ?_, fun hx => ?_⟩⟩
  · unfold dispose
    rw [if_pos hx]
    refine ⟨rfl, ?_⟩
    subst hd
    simp [setActivity, modifyChannel, interruptOutcome]
  · unfold dispose
    rw [if_neg hx]
    have := sendOwed_sends (s := modifyChannel s i fun c =>
      { c with outcome := some (interruptOutcome c), owed := reportDecision c, target := none, remaining := [] })
      ((modifyChannel_ok _ _ _).mpr h) i
    rw [show channelOf (modifyChannel s i fun c =>
      { c with outcome := some (interruptOutcome c), owed := reportDecision c, target := none, remaining := [] }) i = d by
        subst hd; simp [modifyChannel, interruptOutcome]] at this
    exact owedSent_congr this rfl rfl

theorem dispose_sitesElse (s : State) (i : Site) : sitesElse s (dispose s i) i := by
  intro j hj
  unfold dispose
  dsimp only
  split
  · rw [channelOf_setActivity_ne _ _ _ _ hj, channelOf_modifyChannel_ne _ _ _ _ hj]
  · rw [sendOwed_sitesElse _ i j hj, channelOf_modifyChannel_ne _ _ _ _ hj]

end Sys2Proof.Machine
end

