-- ==== Sys2Proof/Laws/Answers.lean ====
section
/-!
SUPPORT. What an answer does, what the closure of a lot does, and when the slot is examined again: each said once in the
vocabulary of the claims.
-/

namespace Sys2Proof.Machine

/-! ## Answers -/

/-- Only the exchange RAM and the waiting notification of the state before matter to an answer. -/
theorem answered_congr {s s' t : State} {q : Half} {code : AnswerCode} {detail : Word} {results : List Word}
    (h : answered s t q code detail results) (hr : s'.ram = s.ram)
    (hq : s'.requests.pendingNotify = s.requests.pendingNotify) : answered s' t q code detail results := by
  obtain ⟨h1, h2, h3, h4⟩ := h
  refine ⟨h1, h2, fun k hk => ?_, ?_⟩
  · rw [h3 k hk, readRam, readRam, hr]
  · rw [h4]
    simp [hq]

/-- Only the exchange RAM and the request unit of the state after matter to an answer. -/
theorem answered_congr_right {s t t' : State} {q : Half} {code : AnswerCode} {detail : Word} {results : List Word}
    (h : answered s t q code detail results) (hr : t'.ram = t.ram) (hq : t'.requests = t.requests) :
    answered s t' q code detail results := by
  obtain ⟨h1, h2, h3, h4⟩ := h
  unfold readRam at h1 h2 h3
  refine ⟨?_, ?_, fun k hk => ?_, hq.trans h4⟩ <;> unfold readRam <;> rw [hr]
  · exact h1
  · exact h2
  · exact h3 k hk

/-- The words of an answer, as `writeAnswer` writes them. -/
theorem writeAnswer_words {s : State} (h : RamOk s) (q : Half) (code : AnswerCode) (detail : Word) (results : List Word)
    (hl : results.length ≤ 4) :
    readRam (writeAnswer s q code detail results) atAnswer = (q.setWidth 32 ||| (code.code <<< 16)) ∧
      readRam (writeAnswer s q code detail results) atDetail = detail ∧
      ∀ k, k < 4 → readRam (writeAnswer s q code detail results) (atResults + 4 * k) =
        if k < results.length then results.getD k 0 else readRam s (atResults + 4 * k) := by
  have h1 := writeRamWords_ok h atResults results
  have h2 := writeRam_ok h1 atDetail detail
  unfold writeAnswer
  refine ⟨?_, ?_, fun k hk => ?_⟩
  · rw [readRam_writeRam h2 (by decide)]
    rfl
  · rw [readRam_writeRam_of_out h2 (by decide), readRam_writeRam h1 (by decide)]
  · rw [readRam_writeRam_of_out h2 (by simp only [atResults, atAnswer]; omega),
      readRam_writeRam_of_out h1 (by simp only [atResults, atDetail]; omega)]
    split
    · rename_i hk'
      rw [readRam_writeRamWords_in h hk' (by simp only [atResults, Config.ramBytes]; omega)]
      simp [hk']
    · exact readRam_writeRamWords_of_out h (by omega)

/-- The fields of an answer word as written. -/
theorem answerFields_of_word {w : Word} {q : Half} {code : AnswerCode} (h : w = q.setWidth 32 ||| (code.code <<< 16)) :
    w.extractLsb' 0 16 = q ∧ w.extractLsb' 16 8 = code.code.extractLsb' 0 8 := by
  subst h
  exact ⟨(answerWord_fields q code).1, (answerWord_fields q code).2.1⟩

/-- An answer touches only the answer fields. -/
theorem writeAnswer_outside {s : State} (h : RamOk s) (q : Half) (code : AnswerCode) (detail : Word) (results : List Word)
    (hl : results.length ≤ 4) : ramOutside s (writeAnswer s q code detail results) [answerFields] := by
  have h1 := writeRamWords_ok h atResults results
  have h2 := writeRam_ok h1 atDetail detail
  have g1 := ramOutside_writeRamWords h atResults results
  have g2 := ramOutside_writeRam h1 atDetail detail
  have g3 := ramOutside_writeRam h2 atAnswer (answerWord q code)
  refine ramOutside_trans (ramOutside_trans (ramOutside_mono g1 ?_) (ramOutside_mono g2 ?_)) (ramOutside_mono g3 ?_)
  all_goals
    intro a ha r hr
    have := ha _ (List.mem_singleton.mpr rfl)
    rw [List.mem_singleton] at hr
    subst hr
    simp only [atResults, atDetail, atAnswer] at this ⊢
    omega

/-- `answer` answers the request in progress. -/
theorem answer_answers {s : State} (h : RamOk s) {r : Request} (hr : s.requests.inProgress = some r) (code : AnswerCode)
    (detail : Word) (results : List Word) (hl : results.length ≤ 4) :
    answered s (answer s code detail results) r.sequence code detail results := by
  have hw := writeAnswer_words h r.sequence code detail results hl
  unfold answer
  rw [hr]
  refine ⟨answerFields_of_word hw.1, hw.2.1, hw.2.2, ?_⟩
  simp

/-- `answer` writes 0 into the bits of the answer word that the layout does not name (notes/assumptions/27.md). -/
theorem answer_rest {s : State} (h : RamOk s) {r : Request} (hr : s.requests.inProgress = some r) (code : AnswerCode)
    (detail : Word) (results : List Word) (hl : results.length ≤ 4) :
    (readRam (answer s code detail results) 0x7C).extractLsb' 24 8 = 0 := by
  have hw := (writeAnswer_words h r.sequence code detail results hl).1
  unfold answer
  rw [hr]
  refine Eq.trans (congrArg (BitVec.extractLsb' 24 8) ?_) (answerWord_fields r.sequence code).2.2
  exact hw

/-- `answer` touches only the answer fields of the exchange RAM. -/
theorem answer_outside {s : State} (h : RamOk s) (code : AnswerCode) (detail : Word) (results : List Word)
    (hl : results.length ≤ 4) : ramOutside s (answer s code detail results) [answerFields] := by
  unfold answer
  cases s.requests.inProgress with
  | none => exact ramOutside_refl rfl _
  | some r => exact ramOutside_congr (writeAnswer_outside h r.sequence code detail results hl) rfl rfl

/-- The attention bits after `answer`. -/
theorem answer_attention {s : State} {r : Request} (hr : s.requests.inProgress = some r) (code : AnswerCode)
    (detail : Word) (results : List Word) : (answer s code detail results).attention = s.attention ||| 2 := by
  unfold answer
  rw [hr]
  simp [raise, AttentionCause.bit]
  rfl

/-- `answerAtOnce` answers the posted sequence. -/
theorem answerAtOnce_answers {s : State} (h : RamOk s) (hb : s.requests.busy = false) (hp : s.requests.inProgress = none)
    (code : AnswerCode) (detail : Word) :
    answered s (answerAtOnce s code detail) (postedSequence s) code detail [] := by
  have hw := writeAnswer_words h (postedSequence s) code detail [] (by simp)
  refine ⟨answerFields_of_word hw.1, hw.2.1, hw.2.2, ?_⟩
  simp [answerAtOnce, hb, hp]

theorem answerAtOnce_outside {s : State} (h : RamOk s) (code : AnswerCode) (detail : Word) :
    ramOutside s (answerAtOnce s code detail) [answerFields] :=
  ramOutside_congr (writeAnswer_outside h (postedSequence s) code detail [] (by simp)) rfl rfl

theorem answerAtOnce_attention (s : State) (code : AnswerCode) (detail : Word) :
    (answerAtOnce s code detail).attention = s.attention ||| 2 := by
  simp [answerAtOnce, raise, AttentionCause.bit]
  rfl

/-! ## Taking a request -/

/-- A posted request is taken. -/
theorem takesRequest_of_posted {s : State} {code : Word} (h : posted s code) : takesRequest s code = true := by
  obtain ⟨h1, h2, h3, h4⟩ := h
  simp [takesRequest, mayExamine, slotIsNew, h1, h2, h3, h4]

/-- A request that is taken is posted. -/
theorem posted_of_takesRequest {s : State} {code : Word} (h : takesRequest s code = true) : posted s code := by
  simp only [takesRequest, mayExamine, slotIsNew, Bool.and_eq_true, decide_eq_true_eq, Bool.not_eq_true'] at h
  exact ⟨h.1.1.1, h.1.1.2, h.1.2, h.2⟩

/-- The request that acceptance puts in progress. -/
theorem accept_inProgress (s : State) : (accept s).requests.inProgress =
    some { code := readRam s atRequestCode, params := slotParams s, sequence := postedSequence s } := rfl

@[simp] theorem accept_ram (s : State) : (accept s).ram = s.ram := rfl

theorem accept_pendingNotify (s : State) : (accept s).requests.pendingNotify = s.requests.pendingNotify := rfl

/-- A parameter of the request just accepted is the word of the slot. -/
theorem paramWord_accept (s : State) {k : Nat} (hk : k < 8) : paramWord (accept s) k = readRam s (atParams + 4 * k) := by
  simp [paramWord, accept, slotParams, hk]

/-- The answer of a request that a command takes, from the state before. -/
theorem accept_answers {s : State} (h : RamOk s) (code : AnswerCode) (detail : Word) (results : List Word)
    (hl : results.length ≤ 4) :
    answered s (answer (accept s) code detail results) (postedSequence s) code detail results :=
  answered_congr (answer_answers (s := accept s) h (accept_inProgress s) code detail results hl) rfl rfl

/-! ## Examining the slot again -/

/-- With no notification waiting the slot is not examined again. -/
theorem reexamine_of_none {s : State} (h : s.requests.pendingNotify = false) : reexamine s = s := by
  simp [reexamine, h]

/-- While the unit is busy the slot is not examined again. -/
theorem reexamine_of_busy {s : State} (h : s.requests.busy = true) : reexamine s = s := by
  simp [reexamine, h]

/-- While the part runs and the unit is idle, no notification waits (R171). -/
theorem pendingNotify_of_posted {s : State} {code : Word} (h : requestLaw s) (hp : posted s code) :
    s.requests.pendingNotify = false := h.2.1 hp.1 hp.2.1

theorem inProgress_of_posted {s : State} {code : Word} (h : requestLaw s) (hp : posted s code) :
    s.requests.inProgress = none := by
  have := h.1
  rw [hp.2.1] at this
  simpa using this.symm

end Sys2Proof.Machine
end

