-- ==== Sys2Proof/Laws/Images.lean ====
section
/-!
SUPPORT. The positions of an image that is given by its words or by its bytes.
-/

namespace Sys2Proof.Machine

/-- Position p of an image is bit p mod 16 of word p / 16 (spec/00 section 5). -/
theorem imageOfWords_getLsbD (ws : List Half) {p : Nat} (hp : p < 192) :
    (imageOfWords ws).getLsbD p = (ws.getD (p / 16) 0).getLsbD (p % 16) := by
  induction ws generalizing p with
  | nil => simp [imageOfWords]
  | cons w ws ih =>
    simp only [imageOfWords, BitVec.getLsbD_or, BitVec.getLsbD_shiftLeft, BitVec.getLsbD_setWidth, hp, decide_true,
      Bool.true_and]
    by_cases h : p < 16
    · simp [h, Nat.div_eq_of_lt h, Nat.mod_eq_of_lt h]
    · have hw : w.getLsbD p = false := BitVec.getLsbD_of_ge _ _ (by omega)
      have hdiv : p / 16 = (p - 16) / 16 + 1 := by omega
      have hmod : p % 16 = (p - 16) % 16 := by omega
      rw [ih (by omega), hw, hdiv, hmod]
      simp [h]

/-- A byte of the data is the low or the high half of its 16-bit number (R136). -/
theorem halvesOf_getLsbD (data : List Byte) (q : Nat) {r : Nat} (hq : 2 * q + 1 < data.length) (hr : r < 16) :
    ((halvesOf data).getD q 0).getLsbD r = (data.getD (2 * q + r / 8) 0).getLsbD (r % 8) := by
  induction q generalizing data with
  | zero =>
    match data, hq with
    | lo :: hi :: rest, _ =>
      have happ : (hi ++ lo : Half).getLsbD r = if r < 8 then lo.getLsbD r else hi.getLsbD (r - 8) :=
        BitVec.getLsbD_append
      show (hi ++ lo : Half).getLsbD r = _
      rw [happ]
      by_cases h : r < 8
      · have e : 2 * 0 + r / 8 = 0 := by omega
        rw [if_pos h, e, Nat.mod_eq_of_lt h]
        rfl
      · have e : 2 * 0 + r / 8 = 1 := by omega
        have m : r % 8 = r - 8 := by omega
        rw [if_neg h, e, m]
        rfl
  | succ q ih =>
    match data, hq with
    | lo :: hi :: rest, hq =>
      have e : 2 * (q + 1) + r / 8 = (2 * q + r / 8) + 1 + 1 := by omega
      rw [e]
      simp only [halvesOf, List.getD_cons_succ]
      exact ih rest (by simp only [List.length_cons] at hq; omega)

/-- The image of 24 data bytes: position p is bit p mod 8 of byte p / 8. -/
theorem imageOfWords_halvesOf (data : List Byte) (h : data.length = 24) {p : Nat} (hp : p < 192) :
    (imageOfWords (halvesOf data)).getLsbD p = (data.getD (p / 8) 0).getLsbD (p % 8) := by
  rw [imageOfWords_getLsbD _ hp, halvesOf_getLsbD data (p / 16) (by omega) (by omega)]
  have e : 2 * (p / 16) + p % 16 / 8 = p / 8 := by omega
  have m : p % 16 % 8 = p % 8 := by omega
  rw [e, m]

end Sys2Proof.Machine
end

