-- ==== Sys2Proof/Laws/Links.lean ====
section
/-!
SUPPORT. What the shared operations of the probe link do, each said once in the vocabulary of the claims.
-/

namespace Sys2Proof.Machine

/-- The spacing as used is the clamp of the claims (spec/08 section 8.5). -/
theorem usedSpacing_eq (w : Word) : usedSpacing w = if w = 0 then 0 else max 2 (min 1000 w.toNat) := by
  unfold usedSpacing clampNat
  split
  · rfl
  · split
    · omega
    · split <;> omega

/-- `sendFrame` sends a frame from the port it finds. -/
theorem sendFrame_sends (s : State) (i : Site) (r : LinkRequest) (rePoint : Bool) :
    frameSent s (portOf s i) (portOf (sendFrame s i r rePoint) i) r rePoint := by
  refine ⟨usedSpacing (readRam s 0x94), isTestFrame (portOf s i).spacing (usedSpacing (readRam s 0x94)), ?_, ?_, ?_⟩
  · exact usedSpacing_eq _
  · simp [isTestFrame]
  · simp [sendFrame]

/-- `sendFrame` leaves the other ports. -/
theorem sendFrame_portsElse (s : State) (i : Site) (r : LinkRequest) (rePoint : Bool) :
    portsElse s (sendFrame s i r rePoint) i := fun _ hj => portOf_modifyPort_ne _ _ _ _ hj

/-- What a frame sent depends on besides the port. -/
theorem frameSent_congr {s s' : State} {p q : LinkPort} {r : LinkRequest} {b : Bool} (h : frameSent s p q r b)
    (hr : s'.ram = s.ram) (hl : s'.lot = s.lot) : frameSent s' p q r b := by
  unfold frameSent readRam at h ⊢
  rw [hr, hl]
  exact h

/-- `repeatFrame` sends the current request again. -/
theorem repeatFrame_sends {s : State} {i : Site} {r : LinkRequest} (h : currentRequest (portOf s i) = some r) :
    frameSent s (portOf s i) (portOf (repeatFrame s i) i) r (portOf s i).onRePoint := by
  unfold repeatFrame
  rw [h]
  exact sendFrame_sends s i r _

theorem repeatFrame_portsElse (s : State) (i : Site) : portsElse s (repeatFrame s i) i := by
  unfold repeatFrame
  cases currentRequest (portOf s i) with
  | none => exact fun _ _ => rfl
  | some r => exact sendFrame_portsElse s i r _

/-- `takeExchange` makes the request that a channel names the exchange of its idle port, and sends it (R140). -/
theorem takeExchange_sends {s : State} {i : Site} {task : LinkTask} (ha : (channelOf s i).activity = .naming task)
    (hp : (portOf s i).phase = .idle) :
    channelOf (takeExchange s i) i = { channelOf s i with activity := .exchanging task } ∧
      frameSent s { portOf s i with exchange := some (taskRequest (channelOf s i) task), retryCount := 0 }
        (portOf (takeExchange s i) i) (taskRequest (channelOf s i) task) false := by
  unfold takeExchange
  rw [ha]
  simp only [hp, if_true]
  refine ⟨by simp [channelOf, sendFrame, modifyPort, setPort, setActivity, modifyChannel, setChannel], ?_⟩
  have := sendFrame_sends (setActivity (modifyPort s i fun p =>
    { p with exchange := some (taskRequest (channelOf s i) task), retryCount := 0 }) i (.exchanging task)) i
    (taskRequest (channelOf s i) task) false
  simp only [setActivity, portOf_modifyChannel, portOf_modifyPort] at this
  exact frameSent_congr this rfl rfl

/-- A channel that names no exchange has none taken. -/
theorem takeExchange_of_not_naming {s : State} {i : Site} (h : ∀ task, (channelOf s i).activity ≠ .naming task) :
    takeExchange s i = s := by
  unfold takeExchange
  split
  · exact absurd ‹_› (h _)
  · rfl

/-- `takeExchange` leaves the other sites and ports. -/
theorem takeExchange_else (s : State) (i : Site) :
    sitesElse s (takeExchange s i) i ∧ portsElse s (takeExchange s i) i := by
  unfold takeExchange
  split
  · split
    · refine ⟨fun j hj => ?_, fun j hj => ?_⟩
      · rw [show ∀ x r, channelOf (sendFrame x i r false) j = channelOf x j from fun _ _ => rfl,
          channelOf_setActivity_ne _ _ _ _ hj]
        rfl
      · rw [sendFrame_portsElse _ i _ _ j hj, setActivity, portOf_modifyChannel, portOf_modifyPort_ne _ _ _ _ hj]
    · exact ⟨fun _ _ => rfl, fun _ _ => rfl⟩
  · exact ⟨fun _ _ => rfl, fun _ _ => rfl⟩

/-! ## Link failure -/

/-- What the channel does with a link failure (R94, R113, R114). -/
theorem channelLinkFailure_acts {s : State} (h : RamOk s) {i : Site} {task : LinkTask}
    (ha : (channelOf s i).activity = .exchanging task) :
    (task = .disarm → owedSent s (channelLinkFailure s i) i (channelOf s i)) ∧
      (task ≠ .disarm → (channelOf s i).bound = none → diedWith s (channelLinkFailure s i) i (channelOf s i) .linkFail .none) ∧
      (task ≠ .disarm → (channelOf s i).bound ≠ none →
        disposed s (channelLinkFailure s i) i { channelOf s i with interruption := some .link }) := by
  refine ⟨fun ht => ?_, fun ht hb => ?_, fun ht hb => ?_⟩
  · subst ht
    unfold channelLinkFailure
    rw [ha]
    exact sendOwed_sends h i
  · have : channelLinkFailure s i = endDie s i .linkFail .none := by
      unfold channelLinkFailure
      rw [ha, hb]
      cases task <;> first | rfl | exact absurd rfl ht
    rw [this]
    exact endDie_ends h i .linkFail .none
  · have hs : (channelOf s i).bound.isNone = false := by
      cases hx : (channelOf s i).bound with
      | none => exact absurd hx hb
      | some b => rfl
    have : channelLinkFailure s i = interruptByLink s i := by
      unfold channelLinkFailure
      rw [ha, hs]
      cases task <;> first | rfl | exact absurd rfl ht
    rw [this]
    have := dispose_disposes (s := modifyChannel s i fun c => { c with interruption := some .link })
      ((modifyChannel_ok _ _ _).mpr h) i
    rw [channelOf_modifyChannel] at this
    exact disposed_congr this rfl rfl

theorem channelLinkFailure_sitesElse (s : State) (i : Site) : sitesElse s (channelLinkFailure s i) i := by
  intro j hj
  unfold channelLinkFailure
  split
  · exact sendOwed_sitesElse s i j hj
  · split
    · exact endDie_sitesElse s i _ _ j hj
    · rw [interruptByLink, dispose_sitesElse _ i j hj, channelOf_modifyChannel_ne _ _ _ _ hj]
  · rfl

/-- `linkFailure` ends the exchange of the port it finds in link failure. -/
theorem linkFailure_fails {s : State} (h : RamOk s) {i : Site} {task : LinkTask}
    (ha : (channelOf s i).activity = .exchanging task) : linkFailed s (linkFailure s i) i (portOf s i) task := by
  have h1 : RamOk (modifyPort s i idlePort) := h
  have hc : channelOf (modifyPort s i idlePort) i = channelOf s i := rfl
  obtain ⟨a, b, c⟩ := channelLinkFailure_acts (task := task) h1 (hc ▸ ha)
  refine ⟨?_, fun ht => owedSent_congr (a ht) rfl rfl, fun ht hb => siteFinished_congr (b ht hb) rfl rfl,
    fun ht hb => disposed_congr (c ht hb) rfl rfl⟩
  have : portOf (linkFailure s i) i = portOf (modifyPort s i idlePort) i := by
    rw [portOf, portOf, linkFailure, (channelLinkFailure_keeps _ _).2.2.2.2.2.2.2.2.1]
  rw [this, portOf_modifyPort]
  rfl

/-- The other channels and ports are as before a link failure. -/
theorem linkFailure_else (s : State) (i : Site) : sitesElse s (linkFailure s i) i ∧ portsElse s (linkFailure s i) i := by
  constructor
  · intro j hj
    rw [linkFailure, channelLinkFailure_sitesElse _ i j hj]
    rfl
  · intro j hj
    have : portOf (linkFailure s i) j = portOf (modifyPort s i idlePort) j := by
      rw [portOf, portOf, linkFailure, (channelLinkFailure_keeps _ _).2.2.2.2.2.2.2.2.1]
    rw [this, portOf_modifyPort_ne _ _ _ _ hj]

/-- `failSending` fails the sending of the port it finds (R142, R143, R146). -/
theorem failSending_fails {s : State} (h : RamOk s) {i : Site} {task : LinkTask}
    (ha : (channelOf s i).activity = .exchanging task) (refused : Bool) :
    sendingFailed s (failSending s i refused) i (portOf s i) task refused := by
  refine ⟨fun hlt => ?_, fun hge => ?_⟩
  · unfold failSending
    rw [if_pos hlt]
    cases refused with
    | false =>
      refine ⟨rfl, by simp, fun _ => by simp, fun hx => absurd hx (by simp)⟩
    | true =>
      refine ⟨by simp, ?_, fun hx => absurd hx (by simp), fun _ r hr => ?_⟩
      · simp only [if_true, channelOf, repeatFrame_keeps]
        simp [modifyChannel, setChannel, channelOf, modifyPort, setPort]
      · rw [if_pos rfl]
        have := repeatFrame_sends (i := i) (r := r) (s := modifyChannel (modifyPort s i fun p => { p with retryCount := p.retryCount + 1 }) i
          fun c => { c with figures := { c.figures with linkRetries := c.figures.linkRetries + 1 } }) (by simpa [currentRequest] using hr)
        simp only [portOf_modifyChannel, portOf_modifyPort] at this
        exact frameSent_congr this rfl rfl
  · unfold failSending
    rw [if_neg (by omega)]
    exact linkFailure_fails h ha

/-- The other channels and ports are as before a failed sending. -/
theorem failSending_else (s : State) (i : Site) (refused : Bool) :
    sitesElse s (failSending s i refused) i ∧ portsElse s (failSending s i refused) i := by
  unfold failSending
  split
  · cases refused with
    | false =>
      refine ⟨fun j hj => ?_, fun j hj => ?_⟩
      · simp only [Bool.false_eq_true, if_false, channelOf_modifyPort]
        exact channelOf_modifyChannel_ne _ _ _ _ hj
      · simp only [Bool.false_eq_true, if_false]
        rw [portOf_modifyPort_ne _ _ _ _ hj, portOf_modifyChannel, portOf_modifyPort_ne _ _ _ _ hj]
    | true =>
      refine ⟨fun j hj => ?_, fun j hj => ?_⟩
      · simp only [if_true, channelOf, repeatFrame_keeps]
        exact channelOf_modifyChannel_ne _ _ _ _ hj
      · simp only [if_true]
        rw [repeatFrame_portsElse _ i j hj, portOf_modifyChannel, portOf_modifyPort_ne _ _ _ _ hj]
  · exact linkFailure_else s i

end Sys2Proof.Machine
end

