-- ==== Sys2Proof/Laws/Lots.lean ====
section
/-!
SUPPORT. The resume list as a list, and the closure of a lot, each said once in the vocabulary of the claims.
-/

namespace Sys2Proof.Machine

/-! ## The resume list -/

/-- An index that no entry holds is not found. -/
theorem entryOf_none {l : LotController} {n : Nat} (h : ∀ e ∈ l.resumeList, e.index ≠ n) : entryOf l n = none := by
  rw [entryOf, List.find?_eq_none]
  intro e he
  simpa using h e he

/-- The entry of an index is the first that holds it. -/
theorem entryOf_split {l : LotController} {n : Nat} {before after : List ResumeEntry} {e : ResumeEntry}
    (hl : l.resumeList = before ++ e :: after) (he : e.index = n) (h : ∀ x ∈ before, x.index ≠ n) :
    entryOf l n = some e := by
  have hb : before.find? (fun e => e.index == n) = none := by
    rw [List.find?_eq_none]
    intro x hx
    simpa using h x hx
  simp [entryOf, hl, List.find?_append, hb, he]

/-- Removing an entry closes the gap (R8). -/
theorem removeEntry_split {l : LotController} {n : Nat} {before after : List ResumeEntry} {e : ResumeEntry}
    (hl : l.resumeList = before ++ e :: after) (he : e.index = n) (h : ∀ x ∈ before, x.index ≠ n) :
    removeEntry l n = { l with resumeList := before ++ after } := by
  rw [removeEntry, hl, List.eraseP_append_right _ (by intro x hx; simpa using h x hx)]
  simp [he]

/-- Replacing an entry keeps its place (R8). -/
theorem updateEntry_split {l : LotController} {n : Nat} {before after : List ResumeEntry} {e : ResumeEntry}
    (f : ResumeEntry → ResumeEntry) (hl : l.resumeList = before ++ e :: after) (he : e.index = n)
    (h : ∀ x ∈ before ++ after, x.index ≠ n) : updateEntry l n f = { l with resumeList := before ++ f e :: after } := by
  have others : ∀ c : List ResumeEntry, (∀ x ∈ c, x.index ≠ n) → c.map (fun e => if e.index = n then f e else e) = c := by
    intro c hc
    conv_rhs => rw [← List.map_id c]
    refine List.map_congr_left fun x hx => ?_
    simp [hc x hx]
  rw [updateEntry, hl, List.map_append, List.map_cons, if_pos he, others before fun x hx => h x (by simp [hx]),
    others after fun x hx => h x (by simp [hx])]

/-- A listed index is found, so that removing its entry shortens the list by one. -/
theorem removeEntry_length {l : LotController} {n : Nat} {e : ResumeEntry} (h : entryOf l n = some e) :
    (removeEntry l n).resumeList.length + 1 = l.resumeList.length := by
  have hm : e ∈ l.resumeList := List.mem_of_find?_eq_some h
  have hp : (e.index == n) = true := by
    have := List.find?_some (p := fun e : ResumeEntry => e.index == n) h
    exact this
  have := List.length_eraseP_of_mem (p := fun e : ResumeEntry => e.index == n) hm hp
  have hpos := List.length_pos_of_mem hm
  rw [removeEntry]
  simp only
  omega

/-- Replacing an entry keeps the length of the list. -/
theorem updateEntry_length (l : LotController) (n : Nat) (f : ResumeEntry → ResumeEntry) :
    (updateEntry l n f).resumeList.length = l.resumeList.length := by
  simp [updateEntry]

/-! ## The summary and the closure -/

/-- The words of the lot summary, as `writeSummary` writes them (R21). -/
theorem writeSummary_words {s : State} (h : RamOk s) (reason : ClosureReason) {t : State}
    (hr : t.ram = (writeSummary s reason).ram) (hn : t.lot.number = s.lot.number) (hf : t.lot.first = s.lot.first)
    (hi : t.lot.nextIndex = s.lot.nextIndex) (hc : t.lot.committed = s.lot.committed) (hs : t.lot.spoiled = s.lot.spoiled)
    (hl : t.lot.closureList = s.lot.closureList) : summaryWritten t reason.code := by
  have hlen : (s.lot.closureList.take Config.closurePlaces |>.map natWord).length ≤ 80 := by
    simp only [List.length_map, List.length_take, Config.closurePlaces]
    omega
  have h1 := writeRam_ok h atSummary 0
  have h2 := writeRamWords_ok h1 (atSummary + 0x1C) ((s.lot.closureList.take Config.closurePlaces).map natWord)
  have h3 := writeRam_ok h2 (atSummary + 0x18) (natWord s.lot.closureList.length)
  have h4 := writeRamWords_ok h3 (atSummary + 0x04)
    [natWord s.lot.first, natWord s.lot.nextIndex, natWord s.lot.committed, natWord s.lot.spoiled, reason.code]
  have word : ∀ a, readRam t a = readRam (writeSummary s reason) a := fun a => by rw [readRam, readRam, hr]
  have five : ∀ k (hk : k < 5), readRam t (0x204 + 4 * k) =
      [natWord s.lot.first, natWord s.lot.nextIndex, natWord s.lot.committed, natWord s.lot.spoiled, reason.code][k]'hk := by
    intro k hk
    rw [word]
    unfold writeSummary
    dsimp only
    rw [readRam_writeRam_of_out h4 (by simp only [atSummary]; omega)]
    exact readRam_writeRamWords_at h3 k (by simp only [atSummary]) (ws := [_, _, _, _, _]) hk
      (by simp only [List.length_cons, List.length_nil, atSummary, Config.ramBytes]; omega)
  refine ⟨?_, ?_, ?_, ?_, ?_, ?_, ?_, ?_⟩
  · rw [word, hn]
    unfold writeSummary
    dsimp only
    exact readRam_writeRam h4 (by decide) _
  · rw [hf]; exact five 0 (by decide)
  · rw [hi]; exact five 1 (by decide)
  · rw [hc]; exact five 2 (by decide)
  · rw [hs]; exact five 3 (by decide)
  · exact five 4 (by decide)
  · rw [word, hl]
    unfold writeSummary
    dsimp only
    rw [readRam_writeRam_of_out h4 (by decide), readRam_writeRamWords_of_out h3
      (by simp only [List.length_cons, List.length_nil, atSummary]; omega)]
    exact readRam_writeRam h2 (by decide) _
  · intro k hk hk80
    rw [hl] at hk
    rw [word, hl]
    unfold writeSummary
    dsimp only
    rw [readRam_writeRam_of_out h4 (by simp only [atSummary]; omega),
      readRam_writeRamWords_of_out h3 (by simp only [atSummary, List.length_cons, List.length_nil]; omega),
      readRam_writeRam_of_out h2 (by simp only [atSummary]; omega),
      readRam_writeRamWords_at h1 k (by simp only [atSummary])
        (by simp only [List.length_map, List.length_take, Config.closurePlaces]; omega)
        (by simp only [atSummary, Config.ramBytes]; omega)]
    rw [List.getElem_map, List.getElem_take, List.getD_eq_getElem?_getD, List.getElem?_eq_getElem hk]
    rfl

/-- The lot summary touches only its own bytes. -/
theorem writeSummary_outside {s : State} (h : RamOk s) (reason : ClosureReason) :
    ramOutside s (writeSummary s reason) [summaryBytes s.lot.closureList.length] := by
  have h1 := writeRam_ok h atSummary 0
  have h2 := writeRamWords_ok h1 (atSummary + 0x1C) ((s.lot.closureList.take Config.closurePlaces).map natWord)
  have h3 := writeRam_ok h2 (atSummary + 0x18) (natWord s.lot.closureList.length)
  have h4 := writeRamWords_ok h3 (atSummary + 0x04)
    [natWord s.lot.first, natWord s.lot.nextIndex, natWord s.lot.committed, natWord s.lot.spoiled, reason.code]
  have g1 := ramOutside_writeRam h atSummary 0
  have g2 := ramOutside_writeRamWords h1 (atSummary + 0x1C) ((s.lot.closureList.take Config.closurePlaces).map natWord)
  have g3 := ramOutside_writeRam h2 (atSummary + 0x18) (natWord s.lot.closureList.length)
  have g4 := ramOutside_writeRamWords h3 (atSummary + 0x04)
    [natWord s.lot.first, natWord s.lot.nextIndex, natWord s.lot.committed, natWord s.lot.spoiled, reason.code]
  have g5 := ramOutside_writeRam h4 atSummary s.lot.number
  unfold writeSummary
  refine ramOutside_trans (ramOutside_mono g1 ?_) (ramOutside_trans (ramOutside_mono g2 ?_)
    (ramOutside_trans (ramOutside_mono g3 ?_) (ramOutside_trans (ramOutside_mono g4 ?_) (ramOutside_mono g5 ?_))))
  all_goals
    intro a ha r hr
    have := ha _ (List.mem_singleton.mpr rfl)
    rw [List.mem_singleton] at hr
    subst hr
    simp only [summaryBytes, atSummary, List.length_map, List.length_take, Config.closurePlaces, List.length_cons,
      List.length_nil] at this ⊢
    omega

/-- `closingSteps` closes the lot and answers the CLOSE_LOT in progress (R20). -/
theorem closingSteps_closes {s : State} (h : RamOk s) {r : Request} (hr : s.requests.inProgress = some r) :
    lotClosed s (closingSteps s) r.sequence := by
  have h1 : RamOk (setLot s (spoilList s.lot)) := h
  have h2 := writeSummary_ok h1 .request
  have hout := writeSummary_outside h1 .request
  have hsum := fun t => writeSummary_words h1 .request (t := t)
  obtain ⟨w, hw⟩ : ∃ w, w = writeSummary (setLot s (spoilList s.lot)) .request := ⟨_, rfl⟩
  obtain ⟨rs, hrs⟩ : ∃ rs, rs = [natWord w.lot.nextIndex, natWord w.lot.committed, natWord w.lot.spoiled,
    natWord w.lot.closureList.length] := ⟨_, rfl⟩
  rw [← hw] at h2 hout hsum
  have hwreq : w.requests = s.requests := by rw [hw]; simp
  have hwlot : w.lot = spoilList s.lot := by rw [hw]; simp
  have hwatt : w.attention = s.attention := by rw [hw]; simp
  have hp : w.requests.inProgress = some r := by rw [hwreq]; exact hr
  have hlen : rs.length ≤ 4 := by rw [hrs]; simp
  have ha := answer_answers h2 hp .done 0 rs hlen
  have ho := answer_outside h2 .done 0 rs hlen
  have hat := answer_attention hp .done 0 rs
  have hform : closingSteps s = setLot (raise (answer w .done 0 rs) .lotClosed)
      { (answer w .done 0 rs).lot with state := .noLot } := by
    rw [hrs, hw]
    rfl
  have hram : (closingSteps s).ram = (answer w .done 0 rs).ram := by rw [hform]; rfl
  have hreq : (closingSteps s).requests = (answer w .done 0 rs).requests := by rw [hform]; rfl
  have hlot : (closingSteps s).lot = { spoilList s.lot with state := .noLot } := by
    rw [hform]
    simp [hwlot]
  have hatt : (closingSteps s).attention = s.attention ||| 18 := by
    rw [hform, setLot_attention]
    show (answer w .done 0 rs).attention ||| BitVec.twoPow 6 4 = _
    rw [hat, hwatt, BitVec.or_assoc]
    rfl
  have low : ∀ a, a + 4 ≤ 0x200 → readRam w a = readRam s a := by
    intro a ha
    refine readRam_of_ramOutside hout ?_
    intro r hr
    rw [List.mem_singleton] at hr
    subst hr
    exact .inl ha
  have high : ∀ a, 0x200 ≤ a → readRam (closingSteps s) a = readRam w a := by
    intro a ha
    have := readRam_of_ramOutside ho (a := a) (by
      intro r hr
      rw [List.mem_singleton] at hr
      subst hr
      exact .inr (by dsimp only; omega))
    rw [readRam, hram]
    exact this
  refine ⟨?_, ?_, ?_, ?_⟩
  · have hreq' : (closingSteps s).requests =
        { s.requests with lastAnswered := r.sequence, busy := false, inProgress := none } := by
      rw [hreq, ha.2.2.2, hwreq]
    apply State.eq_of_fields
    case attention => exact hatt
    case lot => exact hlot
    case requests => exact hreq'
    all_goals first | rfl | simp
  · have hs := hsum { w with lot := (closingSteps s).lot } rfl (by rw [hlot]; rfl) (by rw [hlot]; rfl) (by rw [hlot]; rfl)
      (by rw [hlot]; rfl) (by rw [hlot]; rfl) (by rw [hlot]; rfl)
    obtain ⟨g1, g2, g3, g4, g5, g6, g7, g8⟩ := hs
    exact ⟨(high _ (by omega)).trans g1, (high _ (by omega)).trans g2, (high _ (by omega)).trans g3,
      (high _ (by omega)).trans g4, (high _ (by omega)).trans g5, (high _ (by omega)).trans g6,
      (high _ (by omega)).trans g7, fun k hk hk' => (high _ (by omega)).trans (g8 k hk hk')⟩
  · obtain ⟨a1, a2, a3, a4⟩ := answered_congr_right ha hram hreq
    have hrs' : rs = [BitVec.ofNat 32 (closingSteps s).lot.nextIndex, BitVec.ofNat 32 (closingSteps s).lot.committed,
        BitVec.ofNat 32 (closingSteps s).lot.spoiled, BitVec.ofNat 32 (closingSteps s).lot.closureList.length] := by
      rw [hlot, hrs, hwlot]
      rfl
    rw [← hrs']
    refine ⟨a1, a2, fun k hk => ?_, ?_⟩
    · rw [a3 k hk, low _ (by omega)]
    · rw [a4, hwreq]
  · rw [hlot]
    have hout' : ramOutside s w [summaryBytes (spoilList s.lot).closureList.length] := ramOutside_congr hout rfl rfl
    refine ramOutside_congr (ramOutside_trans (ramOutside_mono hout' ?_) (ramOutside_mono ho ?_)) rfl hram
    · intro a ha r hr
      rw [List.mem_singleton] at hr
      subst hr
      exact ha _ (by simp)
    · intro a ha r hr
      rw [List.mem_singleton] at hr
      subst hr
      exact ha _ (by simp)

end Sys2Proof.Machine
end

