-- ==== Sys2Proof/Laws/Mirrors.lean ====
section
/-!
SUPPORT. What the shared operations of the status mirror writer do, each said once.
-/

namespace Sys2Proof.Machine

/-- The groups of a mirror write do not depend on the exchange RAM or on the writer itself. -/
@[simp] theorem mirrorGroups_writeRam (s : State) (a : Nat) (w : Word) : mirrorGroups (writeRam s a w) = mirrorGroups s := rfl

@[simp] theorem mirrorGroups_setMirror (s : State) (m : MirrorWriter) : mirrorGroups (setMirror s m) = mirrorGroups s := rfl

/-- What the beginning of a write makes of the writer (R178, R179). -/
theorem beginMirrorWrite_begins (s : State) :
    (beginMirrorWrite s).mirror.writing = true ∧ (beginMirrorWrite s).mirror.snapshot = mirrorGroups s ∧
      (beginMirrorWrite s).mirror.count = s.mirror.count + 1 ∧
      (beginMirrorWrite s).mirror.writePending = s.mirror.writePending ∧
      (beginMirrorWrite s).mirror.zeroReached = s.mirror.zeroReached :=
  ⟨rfl, rfl, rfl, rfl, rfl⟩

/-- A trigger begins a write, or sets write pending while one is in progress (R178). -/
theorem triggerMirror_triggers (s : State) :
    (s.mirror.writing = false → triggerMirror s = beginMirrorWrite s) ∧
      (s.mirror.writing = true → triggerMirror s = setMirror s { s.mirror with writePending := true }) := by
  unfold triggerMirror
  exact ⟨fun h => by rw [h]; rfl, fun h => by rw [h]; rfl⟩

/-- A counted pulse touches the countdown and its triggers in flight, and nothing else of the writer (R178). -/
theorem countPulse_counts (m : MirrorWriter) :
    countPulse m =
      match m.countdown with
      | none => m
      | some n =>
        if 1 < n then { m with countdown := some (n - 1) }
        else { m with countdown := none, zeroReached := m.zeroReached + 1 } := by
  unfold countPulse
  cases m.countdown with
  | none => rfl
  | some n => by_cases h : 1 < n <;> simp [h, Nat.not_le.mpr, Nat.not_lt.mp]

/-- A counted pulse leaves the write in progress as it is. -/
@[simp] theorem countPulse_keeps (m : MirrorWriter) :
    (countPulse m).writing = m.writing ∧ (countPulse m).writePending = m.writePending ∧
      (countPulse m).snapshot = m.snapshot ∧ (countPulse m).count = m.count ∧
      (countPulse m).intervalTimer = m.intervalTimer := by
  unfold countPulse
  repeat' split
  all_goals simp

end Sys2Proof.Machine
end

