-- ==== Sys2Proof/WellFormed.lean ====
section
/-!
DEFINITION. Which commands are well formed: an access lies in the exchange RAM and names a byte of one word (R155), a
response has at least its status byte and is no longer than the longest frame (R136), an order names no site twice.
-/

namespace Sys2Proof

/-- A host access lies within the 64 KiB window, at a word's offset (R155, spec/09 section 9.1). -/
def Instr.offsetInWindow : Instr → Bool
  | .hostRamWrite offset _ _ => offset.toNat < Config.ramBytes && offset.toNat % 4 == 0
  | _ => true

/-- A host access names at least one byte (R155). -/
def Instr.namesAByte : Instr → Bool
  | .hostRamWrite _ lanes _ => lanes != 0
  | _ => true

/-- A response has its status byte, and at most the 34 bytes of an OK answer to a READ of 16 words (R136). -/
def Instr.responseHasStatus : Instr → Bool
  | .responseComplete _ bytes => 1 ≤ bytes.length && bytes.length ≤ 34
  | _ => true

/-- The order of a soft reset names no site twice (R22). -/
def Instr.orderWithoutRepeat : Instr → Bool
  | .softReset order => decide order.Nodup
  | _ => true

/-- All checks together. -/
def Instr.wellFormed (i : Instr) : Bool :=
  i.offsetInWindow && i.namesAByte && i.responseHasStatus && i.orderWithoutRepeat

end Sys2Proof
end

