-- ==== Sys2Proof/Tests/Slice0.lean ====
section
/-!
SUPPORT. Tests on the spec's worked values, the smoke tests of WellFormed, and a witness for the hypotheses of every
statement. The expected values are the spec's; each test names where they stand.
-/

namespace Sys2Proof.Tests

open Sys2Proof Sys2Proof.Machine

set_option Elab.async false

/-! ## Helpers -/

/-- The state after a command, or the state itself where the command stops. -/
def after (c : Instr) (s : State) : State :=
  match exec c s with
  | .next t => t
  | _ => s

/-- The state with these words of the exchange RAM. -/
def words (s : State) (l : List (Nat × Word)) : State := l.foldl (fun s w => writeRam s w.1 w.2) s

/-- The part running, nothing yet done. -/
def ready : State := { State.reset with phase := .running }

/-- A request of this code and parameter posted in the slot as the next one. -/
def slot (s : State) (code param : Word) : State :=
  words s [(0x40, (s.requests.lastAnswered + 1).setWidth 32), (0x44, code), (0x48, param)]

/-- The answer in the slot: answered sequence, code, detail, four result words. -/
def answerOf (s : State) : List Nat :=
  [(readRam s 0x7C).toNat % 65536, (readRam s 0x7C).toNat / 65536, (readRam s 0x68).toNat, (readRam s 0x6C).toNat,
    (readRam s 0x70).toNat, (readRam s 0x74).toNat, (readRam s 0x78).toNat]

/-- The secret of the worked derivation (spec/02). -/
def secretOne : Secret := { m0 := 0, m1 := 0, m2 := 0, m3 := 1 }

/-- The part with that secret in this state. -/
def withSecret (state : SecretState) (s : State) : State :=
  { s with derivation := { s.derivation with secret := secretOne, state := state, checkValue := 1 } }

/-- The target of the worked image: lot 1, index 2 (spec/03). -/
def target12 : Image := composeTarget 1 2 (deriveKey secretOne 1 2)

/-- The readback of the worked die that was interrupted in BURN (spec/03). -/
def halfBurnt : Image := imageOfWords [0x0002, 0x0100, 0x001E, 0x0114]

/-- The profile of the worked widths: W0 = 100, Tref = 25, G = 3 (spec/07). -/
def profileA : Profile :=
  { dieType := 0x2C41, minWords := 64, baseWord := 40, baseWidth := 100, refTemp := 25, gain := 3, draw := 300,
    maxAttempts := 3, responseLimit := 50, windows := List.replicate 4 { enabled := false, first := 0, last := 0 } }

/-- A profile record, word by word from its start. -/
def recordWordsAt (k : Nat) (l : List Word) : List (Nat × Word) := l.mapIdx fun i w => (0x800 + 128 * k + 4 * i, w)

/-- Profile 3 of the worked validation, with its draw and its windows 1 and 3 (spec/04). -/
def workedProfile (s : State) (draw first1 first3 last3 capacity : Word) : State :=
  words s
    (recordWordsAt 3 [0x2C41, 64, 40, 5, 200, 40, draw, 0, 1500, 1, 0, 639, 1, first1, 900, 0, 0, 65535, 1, first3, last3] ++
      [(0x88, capacity)])

/-- A lot: number 1, indices 2..9, index 2 bound fresh. -/
def lotOne : LotController :=
  { state := .opened, number := 1, first := 2, last := 9, profile := profileA, nextIndex := 3, committed := 0, spoiled := 0,
    freshBound := 1, resumeList := [], closureList := [] }

/-- An entry of the resume list for the worked die. -/
def entry (index count : Nat) (claimedBy : Option Site) : ResumeEntry :=
  { index := index, waferId := 12, dieX := 3, dieY := 5, count := count, claimedBy := claimedBy }

/-- A channel at work on the worked die, its fresh index 2 granted. -/
def bound2 : SiteChannel :=
  { SiteChannel.afterPowerOn with
    state := .bind, action := 1, dieX := 3, dieY := 5, waferId := 12, contact := true, dieType := 0x2C41, minWords := 64,
    baseWord := 40, maxAttempts := 3, bound := some { index := 2, kind := .fresh }, target := some target12,
    remaining := freshRemaining target12 }

/-- The same die resumed from `halfBurnt`. -/
def resumed2 : SiteChannel :=
  { bound2 with
    state := .burn
    bound := some { index := 2, kind := .resumed }
    readback := halfBurnt
    remaining := resumeRemaining target12 halfBurnt }

/-- A channel still without an index. -/
def unbound : SiteChannel :=
  { bound2 with state := .scan, bound := none, target := none, remaining := [] }

/-- The lot open, the touchdown ACTIVE on frame 0, and site 2 working as this channel; the other sites are DONE. -/
def working (c : SiteChannel) : State :=
  { withSecret .sealed ready with
    lot := lotOne
    touchdown :=
      { TouchdownController.afterPowerOn with
        state := .active, contactLevel := true, holdoff := true, number := 1, total := 1, takePointer := 1,
        activeFrame := some 0, hostTag := 0x51, waferId := 12 }
    contactLine := true
    channels := (Vector.replicate 16 { SiteChannel.afterPowerOn with state := .done }).set 2 c
    rail := { RailController.afterPowerOn with slotTotal := 2 } }

/-- The same with an exchange of this request in flight for this task. -/
def exchanging (c : SiteChannel) (task : LinkTask) (r : LinkRequest) : State :=
  let s := working { c with activity := .exchanging task }
  setPort s 2 { LinkPort.afterPowerOn with phase := .listening, exchange := some r, timer := some 50 }

/-- Site 2's response with its check byte. -/
def respond (body : List Byte) : Instr := .responseComplete 2 (body ++ [- byteSum body])

/-- The state with this lot. -/
def withLot (l : LotController) (s : State) : State := { s with lot := l }

/-- The state with this touchdown state. -/
def withTouchdown (t : TouchdownState) (s : State) : State :=
  setTouchdown s
    { s.touchdown with
      state := t
      holdoff := decide (t = .settling ∨ t = .active)
      settleTimer := if t = .settling then some 0 else none
      activeFrame := if t = .active then some 0 else none }

/-! ## Well-formed commands: each check refuses an ill-formed one -/

theorem test_offset_outside_window_refused : (Instr.hostRamWrite 0x10000 15 0).offsetInWindow = false := by decide
theorem test_unaligned_offset_refused : (Instr.hostRamWrite 0x42 15 0).wellFormed = false := by decide
theorem test_no_lane_refused : (Instr.hostRamWrite 0x40 0 0).namesAByte = false := by decide
theorem test_empty_response_refused : (Instr.responseComplete 2 []).responseHasStatus = false := by decide
theorem test_overlong_response_refused :
    (Instr.responseComplete 2 (List.replicate 35 0)).responseHasStatus = false := by decide
theorem test_repeated_site_refused : (Instr.softReset [1, 2, 1]).orderWithoutRepeat = false := by decide
theorem test_last_word_accepted : (Instr.hostRamWrite 0xFFFC 8 0).wellFormed = true := by decide

/-! ## The derivation (spec/02, worked check values and worked key) -/

theorem test_key_lot1_index2 :
    deriveKey secretOne 1 2 = { k0 := 0x15140F0B, k1 := 0x00271202, k2 := 0x1E0D0E21, k3 := 0x16080113 } := by
  decide +kernel
theorem test_check_value_m3 : checkValueOf secretOne = 1 := by decide +kernel
theorem test_check_value_m0 : checkValueOf { m0 := 1, m1 := 0, m2 := 0, m3 := 0 } = 0x03010102 := by decide +kernel
theorem test_undo_round3 :
    undoRound 1 { k0 := 0x15140F0B, k1 := 0x00271202, k2 := 0x1E0D0E21, k3 := 0x16080113 } =
      { k0 := 0x09050104, k1 := 0x0C0F0E06, k2 := 0x08050D0E, k3 := 0x0602070B } := by
  decide +kernel

/-! ## The fuse image (spec/03, worked image, worked readbacks, worked coding) -/

theorem test_worked_image :
    (List.range 12).map (imageWord target12) =
      [0x0002, 0x0100, 0x801E, 0x1514, 0x0F0B, 0x0027, 0x1202, 0x1E0D, 0x0E21, 0x1608, 0x0113, 0x6100] := by
  decide +kernel
theorem test_worked_blow_count : blownCount target12 = 49 := by decide +kernel
theorem test_worked_blow_order :
    (freshRemaining target12).take 8 = [1, 24, 33, 34, 35, 36, 50, 52] ∧
      (freshRemaining target12).drop 45 = [184, 189, 190, 47] := by
  decide +kernel
theorem test_inverted_key_words :
    [0xF7E3, 0xFFFF, 0x00FF, 0xFF01, 0x0000, 0x8000, 0x7FFF, 0x1234].map storedKeyWord =
        [0x081C, 0x0000, 0x00FF, 0x00FE, 0x0000, 0x8000, 0x8000, 0x1234] ∧
      polarityMask [0xF7E3, 0xFFFF, 0x00FF, 0xFF01, 0x0000, 0x8000, 0x7FFF, 0x1234] = 0x4B ∧
      keyCheck [0xF7E3, 0xFFFF, 0x00FF, 0xFF01, 0x0000, 0x8000, 0x7FFF, 0x1234] = 106 := by
  decide +kernel
theorem test_inverted_image_word_11 :
    imageWord (composeTarget 0 0 { k0 := 0xF7E3FFFF, k1 := 0x00FFFF01, k2 := 0x00008000, k3 := 0x7FFF1234 }) 11 = 0x6A4B := by
  decide +kernel
theorem test_verify_reads_in_bind :
    [0x0006, 0x0002, 0x0016, 0x0046].map (verifyTest target12 34 [35, 36, 47]) =
      [.verified, .notBlown, .unexpectedBlow 36, .unexpectedBlow 38] := by
  decide +kernel
theorem test_interrupted_readback :
    validBinding halfBurnt = true ∧ readbackIndex halfBurnt = 2 ∧ readbackTag halfBurnt = 1 ∧
      overblownAt target12 halfBurnt = none ∧ (resumeRemaining target12 halfBurnt).length = 40 ∧
      (resumeRemaining target12 halfBurnt).head? = some 58 := by
  decide +kernel
theorem test_overblown_readback :
    validBinding (imageOfWords [0x0002, 0x0100, 0x005E, 0x0114]) = true ∧
      overblownAt target12 (imageOfWords [0x0002, 0x0100, 0x005E, 0x0114]) = some 38 := by
  decide +kernel
theorem test_cut_binding_not_valid :
    validBinding (imageOfWords [0x0002, 0x0100]) = false ∧ validBinding (imageOfWords [0x0002, 0x0100, 0x0002]) = false := by
  decide +kernel

/-! ## Profiles and widths (spec/04, worked validation and placement; spec/07, worked widths and section 7.2) -/

/-- VALIDATE_PROFILE of the worked profile. -/
def validated (draw first1 first3 last3 capacity : Word) : List Nat :=
  (answerOf (after .validateProfile (slot (workedProfile ready draw first1 first3 last3 capacity) 5 3))).drop 1

theorem test_validate_window_faults :
    validated 140 830 1000 990 600 = [1, 3, 33, 0x6E, 0, 640] ∧ validated 140 832 1000 990 600 = [1, 3, 19, 0x6E, 0, 640] ∧
      validated 140 832 990 1000 600 = [1, 3, 0, 0x6E, 4, 640] := by
  decide +kernel
theorem test_validate_draw_and_capacity :
    validated 700 832 990 1000 600 = [1, 3, 3, 0x6E, 0, 640] ∧ validated 1200 832 990 1000 600 = [1, 3, 3, 0x7E, 0, 640] ∧
      validated 700 832 990 1000 5000 = [1, 3, 0, 0xEE, 5, 640] := by
  decide +kernel

theorem test_span_at_array_end :
    faultCode { profileA with minWords := 16, baseWord := 4 } 600 = 0 ∧
      faultCode { profileA with minWords := 16, baseWord := 5 } 600 = 2 := by
  decide +kernel
theorem test_worked_widths :
    [(-312 : Int), -1, 0, 1200].map (fun r => [1, 2, 3].map (pulseWidth profileA r)) =
      [[152, 228, 304], [130, 195, 260], [129, 193, 258], [50, 75, 100]] := by
  decide +kernel
theorem test_widths_at_the_ends :
    [1, 2, 3].map (pulseWidth { profileA with baseWidth := 2000, refTemp := 150, gain := 31 } (-4096)) = [4000, 4000, 4000] ∧
      [1, 2, 3].map (pulseWidth { profileA with baseWidth := 10, refTemp := -40, gain := 31 } 4095) = [5, 7, 10] := by
  decide +kernel
theorem test_slot_totals :
    [(600, 140), (600, 300), (1000, 1000), (4000, 5)].map (fun x => slotTotalOf x.1 x.2) = [4, 2, 1, 16] := by decide +kernel

/-! ## The probe link (spec/08, worked frames and worked exchanges) -/

theorem test_worked_frames :
    [LinkRequest.ident, .point 40, .read 12 .low, .arm 641, .point 41, .read 1 .high, .disarm].map (requestFrame · false) =
      [[0x11, 0xEF], [0x22, 0x28, 0x00, 0xB6], [0x33, 0x0C, 0x01, 0xC0], [0x44, 0x81, 0x02, 0x39], [0x22, 0x29, 0x00, 0xB5],
        [0x33, 0x01, 0x02, 0xCA], [0x55, 0xAB]] := by
  decide +kernel
theorem test_worked_test_frame : requestFrame (.arm 641) true = [0x44, 0x81, 0x02, 0xC6] := by decide +kernel

/-- IDENT of the worked die: OK with die type 0x2C41, 64 array words, not locked (spec/08, R93). An OK answer to a test
frame is an escape: link failure with the binding incomplete (spec/08, R150). -/
theorem test_response_at_the_port :
    let t := after (.responseComplete 2 [0x00, 0x41, 0x2C, 0x40, 0x00, 0x00, 0x53])
      (exchanging { unbound with state := .probe } .ident .ident)
    let s := exchanging { bound2 with pulseGranted := true } .verifyPoint (.point 40)
    let u := after (respond [0x00]) (setPort s 2 { portOf s 2 with testFrame := true })
    (channelOf t 2).state = .scan ∧ (channelOf t 2).activity = .naming .blankPoint ∧
      (portOf t 2).counters.goodResponses = 1 ∧ (channelOf u 2).activity = .reporting (.spoil .bindingCut) ∧
      (channelOf u 2).outcome = some .linkFail := by
  decide +kernel

/-- A lost READ response: DRAINING with retry count 1 and one timeout, the resend reported (spec/08, worked exchange). -/
theorem test_timeout_drains :
    let t := after (.responseTimeout 2) (exchanging bound2 .verifyRead (.read 1 .high))
    (portOf t 2).phase = .draining ∧ (portOf t 2).retryCount = 1 ∧ (portOf t 2).counters.timeouts = 1 ∧
      (channelOf t 2).figures.linkRetries = 1 := by
  decide +kernel

/-- The drain interval ends: the READ is resent as a re-point to POINT 41 (spec/08, worked exchange). -/
theorem test_drain_end_repoints :
    let s := exchanging bound2 .verifyRead (.read 1 .high)
    (portOf (after (.drainEnd 2)
      (setPort s 2 { portOf s 2 with phase := .draining, pointedAddress := some 41, retryCount := 1 })) 2).line =
        [0x22, 0x29, 0x00, 0xB5] := by
  decide +kernel

/-- At spacing 3 the third frame, READ 12 at LOW, is sent as a test frame (spec/08, worked exchange). -/
theorem test_third_frame_is_test :
    let s := working { unbound with activity := .naming .blankRead }
    let t := after (.exchangeRequest 2) (words (setPort s 2 { portOf s 2 with spacing := 2 }) [(0x94, 3)])
    (portOf t 2).line = [0x33, 0x0C, 0x01, 0x3F] ∧ (portOf t 2).spacing = 0 ∧ (portOf t 2).counters.testFrames = 1 := by
  decide +kernel

/-! ## The site channels (spec/06, worked sequence of the first blows) -/

/-- Word 40 reads 0x0002 at HIGH: position 1 verifies and the cursor is at 24. Word 41 then reads 0x0000: position 24 is
not blown, and attempt 2 follows. -/
theorem test_verify_reads :
    let t := after (respond [0x00, 0x02, 0x00]) (exchanging bound2 .verifyRead (.read 1 .high))
    let u := after (respond [0x00, 0x00, 0x00])
      (exchanging { bound2 with remaining := bound2.remaining.tail } .verifyRead (.read 1 .high))
    (channelOf t 2).remaining.head? = some 24 ∧ (channelOf t 2).figures.blows = 1 ∧ (channelOf t 2).state = .bind ∧
      (channelOf u 2).attempt = 2 ∧ (channelOf u 2).activity = .naming .arm ∧ (channelOf u 2).figures.blows = 0 := by
  decide +kernel

/-- The fresh key is delivered: ARM 641 is named in BIND. -/
theorem test_key_delivery_arms_641 :
    let s := working { bound2 with state := .scan, target := none, remaining := [], activity := .awaitingKey }
    let t := after .keyDelivery
      { s with derivation := { s.derivation with
                 inProgress := some { site := 2, index := 2, lotNumber := 1, discarded := false } } }
    (channelOf t 2).target = some target12 ∧ (channelOf t 2).state = .bind ∧
      (portOf (after (.exchangeRequest 2) t) 2).line = [0x44, 0x81, 0x02, 0x39] := by
  decide +kernel

/-- The interrupted die is resumed in BURN, and its first ARM is fuse 698 (spec/03, worked readbacks). -/
theorem test_resume_arms_698 :
    let s := working { resumed2 with state := .scan, target := none, remaining := [], activity := .awaitingKey }
    let t := after .keyDelivery
      { s with derivation := { s.derivation with
                 inProgress := some { site := 2, index := 2, lotNumber := 1, discarded := false } } }
    (channelOf t 2).state = .burn ∧
      (portOf (after (.exchangeRequest 2) t) 2).exchange = some (.arm 698) := by
  decide +kernel

/-- The commit of a fresh index writes PROVISIONED, COMMITTED and the key tag: key check 97, polarity mask 0. -/
theorem test_commit_writes_record :
    let t := after (.commit 2) (working { bound2 with outcome := some .provisioned, activity := .reporting .commit })
    readRam t 0x1280 = 0x00000101 ∧ readRam t 0x1284 = 0x9 ∧ readRam t 0x1288 = 2 ∧ readRam t 0x12A0 = 97 ∧
      t.lot.committed = 1 ∧ t.lot.freshBound = 0 := by
  decide +kernel

/-- A third interruption of a resumed index: RESUME_LIMIT (spec/06, worked early lift, site 3). -/
theorem test_release_at_the_limit :
    let t := after (.release 2)
      (withLot { lotOne with freshBound := 0, resumeList := [entry 2 2 (some 2)] }
        (working { resumed2 with outcome := some .interrupted, activity := .reporting .release }))
    readRam t 0x1280 = 0x00040213 ∧ t.lot.resumeList = [] ∧ t.lot.spoiled = 1 := by
  decide +kernel

/-- A held index joins the list with count 1 (spec/06, worked early lift, site 2). -/
theorem test_hold_joins_the_list :
    let t := after (.hold 2) (working { bound2 with outcome := some .interrupted, activity := .reporting .hold })
    t.lot.resumeList = [entry 2 1 none] ∧ readRam t 0x1280 = 0x00000313 := by
  decide +kernel

/-- A spoil by BINDING_CUT (spec/06, worked early lift, site 1). -/
theorem test_spoil_binding_cut :
    let t := after (.spoil 2)
      (working { bound2 with outcome := some .interrupted, activity := .reporting (.spoil .bindingCut) })
    readRam t 0x1280 = 0x00020213 ∧ t.lot.spoiled = 1 ∧ t.lot.freshBound = 0 := by
  decide +kernel

/-- A fresh claim of the next index, 3 (R6). -/
theorem test_fresh_claim_granted :
    let t := after (.freshClaim 2) (working { unbound with activity := .claimingFresh })
    (channelOf t 2).bound = some { index := 3, kind := .fresh } ∧ t.lot.nextIndex = 4 ∧ t.lot.freshBound = 2 := by
  decide +kernel

/-- A resume claim of the worked die, and of one with another X coordinate (R10). -/
theorem test_resume_claim_matches_the_die :
    let s (x : Half) := withLot { lotOne with freshBound := 0, resumeList := [entry 2 1 none] }
      (working { unbound with readback := halfBurnt, dieX := x, activity := .claimingResume })
    (after (.resumeClaim 2) (s 3)).lot.resumeList = [entry 2 1 (some 2)] ∧
      (channelOf (after (.resumeClaim 2) (s 4)) 2).outcome = some .bindingMismatch := by
  decide +kernel

/-- The early lift cuts a pulse and withdraws a slot request and a key request (spec/06, worked early lift). -/
theorem test_interruption_gives_back :
    [Activity.pulsing, .awaitingSlot, .awaitingKey].map (fun a =>
      (channelOf (after (.interruption 2) (working { bound2 with activity := a, interruptSent := some .earlyLift })) 2).activity)
      = [.cutting, .withdrawingSlot, .withdrawingKey] := by
  decide +kernel

/-- A key request with the engine idle begins at once; its withdrawal lets it run and discards it (R35, R36). -/
theorem test_key_request_and_withdrawal :
    let t := after (.keyRequest 2) (working { bound2 with activity := .askingKey })
    let u := after (.keyWithdrawal 2) (setChannel t 2 { channelOf t 2 with activity := .withdrawingKey })
    t.derivation.inProgress = some { site := 2, index := 2, lotNumber := 1, discarded := false } ∧
      u.derivation.inProgress = some { site := 2, index := 2, lotNumber := 1, discarded := true } ∧
      (channelOf u 2).activity = .reporting (.spoil .neverBurned) := by
  decide +kernel

/-! ## The rail (spec/07, worked sequence and worked hold) -/

/-- The rail of the worked sequence at step 9: sites 0, 1 and 2 wait with attempts 2, 1 and 1, site 3 was granted last. -/
def railNine : State :=
  { ready with
    reading := 1340
    rail := { RailController.afterPowerOn with
      slotTotal := 2, lastGranted := 3, hold := true
      waiting := ((Vector.replicate 16 none).set 0 (some 2)).set 1 (some 1) |>.set 2 (some 1) } }

/-- Step 10: the reading 1320 clears the hold, and the scan grants sites 0 and 1. -/
theorem test_hold_clears_and_scan_grants :
    let t := after (.temperatureReading ⟨1320, false⟩) (words railNine [(0x84, 1360)])
    t.rail.hold = false ∧ t.rail.slotsInUse = 2 ∧ t.rail.lastGranted = 1 ∧
      (Config.allSites.filter fun i => (t.rail.waiting[i]).isSome) = [2] ∧
      (Config.allSites.filter fun i => (t.rail.pulses[i]).isSome) = [0, 1] := by
  decide +kernel

/-- The worked hold: the hold after each reading, and the TEMP_HOLD raised from a cleared bit. -/
theorem test_worked_hold :
    [(1350, false), (1360, false), (1372, true), (1340, true), (1328, true), (1327, true), (1345, false), (1361, false)].map
        (fun x : Int × Bool =>
          let t := after (.temperatureReading ⟨x.1, false⟩)
            (words { ready with rail := { RailController.afterPowerOn with hold := x.2 } } [(0x84, 1360)])
          (t.rail.hold, t.attention)) =
      [(false, 0), (true, 8), (true, 0), (true, 0), (true, 0), (false, 0), (false, 0), (true, 8)] := by
  decide +kernel

/-- Step 1: a request with a slot free is granted at once; step 3: with both in use it joins the waiting set. -/
theorem test_slot_request :
    let t := after (.slotRequest 2) (working { bound2 with activity := .askingSlot })
    let s := working { bound2 with attempt := 2, activity := .askingSlot }
    let u := after (.slotRequest 2) { s with rail := { s.rail with slotsInUse := 2 } }
    t.rail.slotsInUse = 1 ∧ t.rail.lastGranted = 2 ∧ t.rail.pulses[(2 : Site)] = some 129 ∧ (channelOf t 2).activity = .pulsing ∧
      u.rail.slotsInUse = 2 ∧ u.rail.waiting[(2 : Site)] = some 2 := by
  decide +kernel

/-- Step 11: a withdrawal leaves the waiting set; no slot moves. -/
theorem test_slot_withdrawal :
    let s := working { bound2 with activity := .withdrawingSlot, interruption := some .earlyLift }
    let t := after (.slotWithdrawal 2) { s with rail := { s.rail with slotsInUse := 2, waiting := s.rail.waiting.set 2 (some 1) } }
    t.rail.slotsInUse = 2 ∧ t.rail.waiting[(2 : Site)] = none := by
  decide +kernel

/-- The part with a pulse of site 2 in flight. -/
def pulsing (a : Activity) : State :=
  let s := working { bound2 with dieArmed := true, pulseGranted := true, activity := a, interruption := some .earlyLift }
  { s with rail := { s.rail with slotsInUse := 1, pulses := s.rail.pulses.set 2 (some 129) } }

/-- A pulse end leads to the verify read; the pulse that brings the countdown to 0 leaves it none (spec/10, worked
schedule). -/
theorem test_pulse_end :
    let s := pulsing .pulsing
    let t := after (.pulseEnd 2) { s with mirror := { s.mirror with countdown := some 1 } }
    t.rail.slotsInUse = 0 ∧ (channelOf t 2).activity = .naming .verifyPoint ∧ (channelOf t 2).dieArmed = false ∧
      t.mirror.countdown = none ∧ t.mirror.zeroReached = 1 := by
  decide +kernel

/-- A cut pulse in BIND: BINDING_CUT (spec/06, worked early lift, site 1). -/
theorem test_pulse_cut :
    let t := after (.pulseCut 2) (pulsing .cutting)
    t.rail.slotsInUse = 0 ∧ (channelOf t 2).activity = .reporting (.spoil .bindingCut) := by
  decide +kernel

/-! ## The touchdown (spec/05, worked sequence) -/

/-- A rise in IDLE: SETTLING with HOLDOFF, total 1; a bounce: IDLE, bounced 1 (steps 1 and 2). -/
theorem test_contact_rise_and_bounce :
    let t := after .contactRise (words ready [(0x80, 1000)])
    let u := after .contactFall t
    t.touchdown.state = .settling ∧ t.touchdown.holdoff = true ∧ t.touchdown.total = 1 ∧ t.touchdown.settleTimer = some 1000 ∧
      u.touchdown.state = .idle ∧ u.touchdown.holdoff = false ∧ u.touchdown.bounced = 1 := by
  decide +kernel

/-- A rise in ACTIVE is an overlap (step 15). -/
theorem test_overlapped_rise :
    let t := after .contactRise { working bound2 with contactLine := false }
    t.touchdown.state = .active ∧ t.touchdown.overlapped = 1 := by
  decide +kernel

/-- An early lift interrupts the working site and no DONE one (step 14). -/
theorem test_early_lift :
    let t := after .contactFall (working bound2)
    t.touchdown.endReason = some .earlyLift ∧ (channelOf t 2).interruptSent = some .earlyLift ∧
      (channelOf t 3).interruptSent = none := by
  decide +kernel

/-- The part SETTLING with four sites fitted, a lot open, and a plan for site 1 in frame 0. -/
def settling : State :=
  let s := withTouchdown .settling (withLot lotOne (withSecret .sealed ready))
  words { s with straps := { s.straps with population := 3 }, reading := -312 }
    [(0x1000, 1), (0x1004, 0x51), (0x1008, 31), (0x1050, 1), (0x1054, 4), (0x1058, 5)]

/-- The latch moment takes frame 0: ACTIVE, pointer 1, the take fields, and the four tests without the link (step 4). -/
theorem test_settle_expiry_takes_frame :
    let t := after (.settleExpiry ⟨0b0110, 0⟩) settling
    readRam t 0x1000 = 2 ∧ readRam t 0x1010 = -312 ∧ readRam t 0x1014 = 1 ∧ t.touchdown.takePointer = 1 ∧
      (channelOf t 1).activity = .naming .ident ∧ (channelOf t 0).outcome = some .skipped ∧
      (channelOf t 4).outcome = some .notFitted := by
  decide +kernel

/-- A frame taken with no lot, and an OPEN_LOT taken before site 1 makes its lot check: the lot number at take is 0, and the
site works in the new lot; with no lot opened it ends NO_LOT (R5, R92). -/
theorem test_lot_check_after_the_take :
    let t := after (.settleExpiry ⟨0b0110, 0b0010⟩) (withLot LotController.afterPowerOn settling)
    let u := after (.exchangeRequest 1) (withLot lotOne t)
    let v := after (.exchangeRequest 1) t
    readRam t 0x1014 = 0 ∧ (channelOf t 1).state = .probe ∧ (portOf u 1).line = [0x11, 0xEF] ∧
      (channelOf u 1).dieType = 0x2C41 ∧ (channelOf v 1).outcome = some .noLot := by
  decide +kernel

/-- A plan left in frame 1 is taken when the pointer names it; its coordinates go with the channel and, whatever the host then
writes into the plan entry, with the record (R183). -/
theorem test_stale_plan_keeps_its_coordinates :
    let s := words settling [(0x2000, 1), (0x2050, 1), (0x2054, 0xFFFD), (0x2058, 9), (0x2064, 7)]
    let t := after (.settleExpiry ⟨0b0110, 0⟩) { s with touchdown := { s.touchdown with takePointer := 1 } }
    let u := after (.hostRamWrite 0x2064 15 8) t
    planCoordinates t 1 1 = (-3, 9) ∧ (channelOf t 1).dieX = -3 ∧ (channelOf t 1).dieY = 9 ∧ readRam t 0x1000 = 1 ∧
      (channelOf t 1).recordCoordinates[1] = none ∧ (channelOf u 2).recordCoordinates[1] = some (7, 0) := by
  decide +kernel

/-- A frame that is not ARMED: NO_PLAN, WAIT_LIFT, planless 1, the pointer as it was (step 9). -/
theorem test_settle_expiry_without_plan :
    let t := after (.settleExpiry ⟨0b0110, 0⟩) (words settling [(0x1000, 0)])
    t.touchdown.state = .waitLift ∧ t.attention = 4 ∧ t.touchdown.planless = 1 ∧ t.touchdown.takePointer = 0 := by
  decide +kernel

/-- The last site DONE finishes frame 0 with end reason COMPLETE and FRAME_DONE (step 5). -/
theorem test_site_done_finishes_frame :
    let t := after (.siteDone 2) (working { bound2 with state := .done, activity := .finished })
    readRam t 0x1000 = 3 ∧ readRam t 0x1018 = 1 ∧ readRam t 0x101C = 3 ∧ t.attention = 1 ∧ t.touchdown.state = .waitLift ∧
      t.touchdown.holdoff = false := by
  decide +kernel

/-! ## Requests (spec/09, worked sequence; spec/01, section 1.6; spec/02, section 2.2) -/

/-- Step 9 of the worked sequence: a posted 7 against A = 5 is answered SEQUENCE with detail 5. -/
theorem test_notify_sequence :
    (answerOf (after (.notify 0) (words { ready with requests := { ready.requests with lastAnswered := 5 } } [(0x40, 7)]))).take 3
      = [7, 7, 5] := by
  decide +kernel

/-- After sequence 65535 the next is 0. -/
theorem test_notify_wraps :
    (answerOf (after (.notify 0) (slot { ready with requests := { ready.requests with lastAnswered := 65535 } } 9 0))).take 2
      = [0, 1] := by
  decide +kernel

/-- OPEN_LOT on the worked profile 3: BAD_PARAMETER, detail 5, 33 and 0x6E (spec/04). -/
theorem test_open_lot_refused :
    answerOf (after .openLot (slot (words (workedProfile (withSecret .sealed ready) 140 830 1000 990 600)
      [(0x100, 1), (0x104, 2), (0x108, 9), (0x10C, 3)]) 1 0)) = [1, 3, 5, 33, 0x6E, 0, 0] := by
  decide +kernel

/-- OPEN_LOT on the corrected profile 3: DONE, the clamp mask, S = 4 and 8 indices. -/
theorem test_open_lot_done :
    answerOf (after .openLot (slot (words (workedProfile (withSecret .sealed ready) 140 832 990 1000 600)
      [(0x100, 1), (0x104, 2), (0x108, 9), (0x10C, 3)]) 1 0)) = [1, 1, 0x6E, 4, 8, 0, 0] := by
  decide +kernel

/-- CLOSE_LOT in IDLE: the listed index is spoiled into the summary, and the answer is DONE (R20). -/
theorem test_close_lot :
    let t := after .closeLot (slot (withLot { lotOne with freshBound := 0, resumeList := [entry 2 1 none] }
      (withSecret .sealed ready)) 2 0)
    answerOf t = [1, 1, 0, 3, 0, 1, 1] ∧ readRam t 0x214 = 1 ∧ readRam t 0x21C = 2 ∧ t.lot.state = .noLot ∧ t.attention = 18 := by
  decide +kernel

/-- SPOIL_INDEX of a listed index, and of a claimed one (R16). -/
theorem test_spoil_index :
    let s (claimed : Option Site) := slot (withLot { lotOne with freshBound := 0, resumeList := [entry 2 1 claimed] }
      (withSecret .sealed ready)) 3 2
    answerOf (after .spoilIndex (s none)) = [1, 1, 9, 2, 1, 0, 0] ∧
      answerOf (after .spoilIndex (s (some 5))) = [1, 5, 5, 0, 0, 0, 0] := by
  decide +kernel

/-- LIST_RESUME copies an entry word by word, coordinates sign-extended (R17, spec/09 section 9.3). -/
theorem test_list_resume :
    let t := after .listResume (slot (withLot { lotOne with
      freshBound := 0, resumeList := [{ entry 2 1 (some 5) with dieX := 0xFFFF }] } (withSecret .sealed ready)) 4 0)
    (List.range 8).map (fun k => readRam t (0x3000 + 4 * k)) = [2, 12, 0xFFFFFFFF, 5, 1, 1, 5, 0] := by
  decide +kernel

/-- LOAD_SECRET in ABSENT: DONE with the check value 1, staging zero; without the strap: STRAP (R25, worked check values). -/
theorem test_load_secret :
    let s (strap : Bool) := slot (words { ready with straps := { ready.straps with secretLoad := strap } } [(0x40C, 1)]) 6 0
    let t := after .loadSecret (s true)
    answerOf t = [1, 1, 0, 1, 0, 0, 0] ∧ readRam t 0x10 = 1 ∧ readRam t 0x14 = 1 ∧ readRam t 0x40C = 0 ∧
      answerOf (after .loadSecret (s false)) = [1, 6, 0, 0, 0, 0, 0] := by
  decide +kernel

/-- SEAL_SECRET in LOADED, and again in SEALED (R28). -/
theorem test_seal_secret :
    answerOf (after .sealSecret (slot (withSecret .loaded ready) 7 0)) = [1, 1, 0, 1, 0, 0, 0] ∧
      answerOf (after .sealSecret (slot (withSecret .sealed ready) 7 0)) = [1, 2, 2, 0, 0, 0, 0] := by
  decide +kernel

/-- ABORT_TOUCHDOWN in SETTLING: BAD_STATE, detail 1; in ACTIVE it stays unanswered (spec/05, worked close and abort). -/
theorem test_abort_touchdown :
    answerOf (after .abortTouchdown (slot settling 8 0)) = [1, 2, 1, 0, 0, 0, 0] ∧
      (after .abortTouchdown (slot (working bound2) 8 0)).requests.busy = true := by
  decide +kernel

/-- CLEAR_COUNTERS: DONE, counters 0, the touchdown number as it was (R153). -/
theorem test_clear_counters :
    let t := after .clearCounters (slot (working bound2) 9 0)
    answerOf t = [1, 1, 0, 0, 0, 0, 0] ∧ t.touchdown.total = 0 ∧ t.touchdown.number = 1 := by
  decide +kernel

/-- An unknown code 10: UNKNOWN, the code in the detail word (R167). -/
theorem test_unknown : answerOf (after .unknown (slot ready 10 0)) = [1, 8, 10, 0, 0, 0, 0] := by decide +kernel

/-! ## Registers, the mirror and the resets (spec/10) -/

/-- POWER_ON_RESET with the straps 3 and secret-load: STRAPS reads 0x103, ATTENTION and CONTROL 0 (R174, R181). -/
theorem test_power_on_reset :
    let t := after (.powerOnReset 3 true) (working bound2)
    readRegister t 0x10 = 0x103 ∧ readRegister t 0x0C = 0 ∧ readRegister t 0x04 = 0 ∧ t.phase = .startupWaiting := by
  decide +kernel

/-- Readings of a start-up at the trip value 0: before the zeroing is complete one is the current reading and no more; the first
after it sets the hold, raises TEMP_HOLD and lets the start-up go on (R181). -/
theorem test_startup_readings :
    let t := after (.temperatureReading ⟨400, true⟩) State.reset
    let u := after (.temperatureReading ⟨416, false⟩) t
    t.reading = 400 ∧ t.rail.hold = false ∧ t.attention = 0 ∧ t.phase = .startupWaiting ∧
      u.reading = 416 ∧ u.rail.hold = true ∧ u.attention = 8 ∧ u.phase = .startupReady := by
  decide +kernel

/-- STARTUP_END: signature 0x7A4C5031, part code 0x5016, four fitted sites (R159). -/
theorem test_startup_end :
    let t := after .startupEnd
      { ready with phase := .startupReady, straps := { population := 3, secretLoad := true } }
    readRam t 0x00 = 0x7A4C5031 ∧ readRam t 0x04 = 0x5016 ∧ readRam t 0x0C = 4 ∧ t.phase = .running := by
  decide +kernel

/-- SOFT_RESET with a fresh index bound: reason RESET, index 2 in the closure list; SOFT_RESET reads 1 (R22, R175). -/
theorem test_soft_reset :
    let t := after (.softReset []) (working bound2)
    readRam t 0x214 = 2 ∧ readRam t 0x218 = 1 ∧ readRam t 0x21C = 2 ∧ readRegister t 0x04 = 1 ∧ t.touchdown.state = .idle := by
  decide +kernel

/-- SOFT_RESET_END: RESET_DONE alone is set, and the hold is clear (R182). -/
theorem test_soft_reset_end :
    let t := after .softResetEnd { railNine with phase := .softReset, attention := 9 }
    t.attention = 32 ∧ t.rail.hold = false ∧ readRegister t 0x04 = 0 := by
  decide +kernel

/-- ATTENTION: a write of 1 clears a bit, a write of 0 leaves it (R176); the line follows the enables (R177). -/
theorem test_attention_write :
    (after (.attentionWrite 0x21) { ready with attention := 0b100011 }).attention = 0b000010 ∧
      interruptLine (after (.interruptEnables 2) { ready with attention := 0b000010 }) = true := by
  decide +kernel

/-- IDENT reads 0x00015016 whatever is written (R174). -/
theorem test_register_write : readRegister (after (.registerWrite .ident 0xFFFFFFFF) ready) 0x00 = 0x00015016 := by
  decide +kernel

/-- A host write changes the bytes it names, little-endian (R155). -/
theorem test_host_write :
    readRam (after (.hostRamWrite 0xFFFC 0b0110 0xAABBCCDD) (words ready [(0xFFFC, 0x11223344)])) 0xFFFC = 0x11BBCC44 := by
  decide +kernel

/-- Beyond the 64 KiB there is nothing to write. -/
theorem test_host_write_outside : exec (.hostRamWrite 0x10000 15 0) ready = .fault (.outsideExchangeRam 0x10000) := rfl

/-- The mirror writer with mode PULSES and interval 3 (spec/10, worked mirror schedule). -/
def scheduled (m : MirrorWriter) : State := words { ready with mirror := m } [(0x8C, 2), (0x90, 3)]

/-- MIRROR_NOW begins write 1 with the countdown 3. -/
theorem test_mirror_now :
    let t := after .mirrorNow (scheduled MirrorWriter.afterReset)
    t.mirror.count = 1 ∧ t.mirror.countdown = some 3 ∧ readRam t 0x4000 = 1 ∧ readRam t 0x4008 = 2 := by
  decide +kernel

/-- The countdown reached 0: write 2 begins with the countdown set anew; a timer expiry triggers likewise. -/
theorem test_mirror_triggers :
    (after .mirrorCountdownZero (scheduled { MirrorWriter.afterReset with count := 1, zeroReached := 1 })).mirror.countdown =
        some 3 ∧
      (after .mirrorIntervalExpiry (scheduled { MirrorWriter.afterReset with count := 1, intervalTimer := some 3 })).mirror.count
        = 2 := by
  decide +kernel

/-- Write 2 ends with write pending: write 3 begins. -/
theorem test_mirror_write_end :
    let t := after (.mirrorWriteEnd 0) (scheduled { MirrorWriter.afterReset with count := 2, writing := true, writePending := true })
    t.mirror.count = 3 ∧ t.mirror.writePending = false := by
  decide +kernel

/-- A group is shown whole, from the moment its bit names: no bound index and no cursor now, index 2 and cursor 1 when the
write began (R179). -/
theorem test_mirror_group_moments :
    [0b1, 0b0].map (fun early =>
      let m := writeGroups [] early [siteGroup (working bound2) 2] [siteGroup ready 2] 0
      [readWord m 0x4080, readWord m 0x4084, readWord m 0x4088]) =
      [[3, 2, 1], [0, 0xFFFFFFFF, 0xFFFFFFFF]] := by
  decide +kernel

/-! ## Witnesses: states and operands that meet the hypotheses of each statement, each clause at a boundary -/

/-- The part at work, a word in its exchange RAM, and a fresh claim of site 2 at the front of its queue. Index 2 is listed,
index 3 is held by site 5, whose pulse runs, and index 4 is committed. -/
def queued : State :=
  let s := words (working { unbound with activity := .claimingFresh }) [(0xFFFC, 0x80000001)]
  let s := setChannel s 5 { bound2 with bound := some { index := 3, kind := .fresh }, activity := .pulsing }
  { withLot { lotOne with nextIndex := 5, committed := 1, resumeList := [entry 2 1 none] } s with
    rail := { s.rail with slotsInUse := 1, pulses := s.rail.pulses.set 5 (some 129) }
    pending := [.freshClaim 2] }

/-- The part during a mirror write, with or without write pending. -/
def queuedMirror (again : Bool) : State :=
  { ready with
    mirror :=
      { MirrorWriter.afterReset with writing := true, writePending := again, snapshot := mirrorGroups (working bound2) } }

/-- The step of `queued` answers a next state. -/
theorem queued_steps : step queued = .next (after (.freshClaim 2) { queued with pending := [] }) := rfl

theorem witness_StepRunsTheFrontCommand : queued.pending = [.freshClaim 2] := rfl

theorem witness_CommandsLeaveTheQueue : exec (.attentionWrite 1) queued = .next (clearAttention queued 1) := rfl

theorem witness_CommandsWithoutTheirEventDoNothing :
    ready.pending = [] ∧ (channelOf ready 15).activity = .resting ∧ (channelOf ready 15).interruptSent = none ∧
      (portOf ready 15).phase = .idle ∧ ready.derivation.inProgress = none ∧ ready.rail.pulses[(15 : Site)] = none ∧
      ready.touchdown.settleTimer = none ∧ (working bound2).contactLine = true ∧ ready.contactLine = false ∧
      ready.mirror.intervalTimer = none ∧ ready.mirror.zeroReached = 0 ∧ ready.mirror.writing = false ∧
      ready.phase ≠ .startupReady ∧ ready.phase ≠ .softReset ∧ State.reset.phase ≠ .running := by
  decide +kernel

theorem witness_CommandsWithoutTheirEvent_nothing_posted : ∀ code, ¬ posted State.reset code :=
  fun _ h => absurd h.1 (by decide)

theorem witness_RamCanonicalFormIsKept : queued.ram ≠ [] ∧ queued.ram.wf ∧ ∃ t, step queued = .next t :=
  ⟨by decide +kernel, by decide +kernel, _, queued_steps⟩

theorem witness_LotConservationIsKept :
    queued.lot.state ≠ .noLot ∧ lotConserved queued.lot ∧ ∃ t, step queued = .next t :=
  ⟨by decide +kernel, by unfold lotConserved; decide +kernel, _, queued_steps⟩

/-- The laws of working, of holding and of the rail hold of `queued`. -/
theorem queued_laws : workLaw queued ∧ holdingLaw queued ∧ railLaw queued := by
  refine ⟨?_, ?_, ?_⟩
  · simp only [workLaw, works]; decide +kernel
  · simp only [holdingLaw, indexFitsActivity]; refine ⟨?_, ?_⟩ <;> decide +kernel
  · simp only [railLaw]; decide +kernel

theorem witness_LotBoundsAndSealAreKept :
    (allocationInRange queued.lot ∧ listWithinPlaces queued.lot ∧ lotOnlyUnderSeal queued) ∧
      (workLaw queued ∧ holdingLaw queued) ∧ ∃ t, step queued = .next t :=
  ⟨by unfold allocationInRange listWithinPlaces lotOnlyUnderSeal; decide +kernel, ⟨queued_laws.1, queued_laws.2.1⟩, _,
    queued_steps⟩

theorem witness_HoldoffAndActiveFrameFollowTheTouchdown : holdoffLaw queued ∧ ∃ t, step queued = .next t :=
  ⟨by unfold holdoffLaw; decide +kernel, _, queued_steps⟩

theorem witness_RequestUnitLawIsKept : requestLaw queued ∧ ∃ t, step queued = .next t :=
  ⟨by unfold requestLaw; decide +kernel, _, queued_steps⟩

theorem witness_MirrorSnapshotIsOfOneMoment :
    (ready.mirror.writing = false ∧ exec .mirrorNow ready = .next (after .mirrorNow ready) ∧
        (after .mirrorNow ready).mirror.writing = true) ∧
      (queuedMirror true).mirror.writing = true ∧ (queuedMirror true).mirror.writePending = true ∧
      (∃ t, exec (.mirrorWriteEnd 0) (queuedMirror true) = .next t) ∧
      ∃ t, exec .mirrorNow (queuedMirror false) = .next t :=
  ⟨⟨rfl, rfl, by decide +kernel⟩, rfl, rfl, ⟨_, rfl⟩, _, rfl⟩

theorem witness_SealedSecretStays :
    queued.derivation.state = .sealed ∧ (∀ p b, Instr.softReset [] ≠ .powerOnReset p b) ∧
      ∃ t, exec (.softReset []) queued = .next t :=
  ⟨by decide +kernel, ⟨fun _ _ h => Instr.noConfusion h, ⟨_, rfl⟩⟩⟩

/-- The part in this phase, with or without a waiting notification. -/
def resetting (phase : RunPhase) (waiting : Bool) : State :=
  { ready with phase := phase, requests := { ready.requests with pendingNotify := waiting } }

theorem witness_StartupEndPublishesTheIdentity :
    ∀ w ∈ [true, false], (resetting .startupReady w).phase = .startupReady ∧ (resetting .startupReady w).ram.wf ∧
      requestLaw (resetting .startupReady w) ∧ (resetting .startupReady w).requests.pendingNotify = w := by
  simp only [requestLaw]; decide +kernel

theorem witness_SoftResetClearsThePart :
    (ready.phase = .running ∧ ready.ram.wf ∧ ready.lot.state = .noLot) ∧
      (queued.phase = .running ∧ queued.ram.wf ∧ queued.lot.state ≠ .noLot) ∧ holdingLaw queued :=
  ⟨by decide +kernel, by decide +kernel, queued_laws.2.1⟩

theorem witness_SoftResetEndRaisesResetDone :
    ∀ w ∈ [true, false], (resetting .softReset w).phase = .softReset ∧ requestLaw (resetting .softReset w) ∧
      (resetting .softReset w).requests.pendingNotify = w := by
  simp only [requestLaw]; decide +kernel

theorem witness_HostWriteChangesTheNamedBytes :
    queued.ram.wf ∧ (0 : Word).toNat < 65536 ∧ (0xFFFF : Word).toNat < 65536 := by decide +kernel

theorem witness_MirrorTriggersBeginOrWait :
    ∀ w ∈ [true, false],
      let m := { MirrorWriter.afterReset with writing := w, intervalTimer := some 60000, zeroReached := 1 }
      (scheduled m).ram.wf ∧ (scheduled m).phase = .running ∧ (scheduled m).mirror.intervalTimer.isSome = true ∧
        (scheduled m).mirror.zeroReached ≠ 0 ∧ (scheduled m).mirror.writing = w := by
  decide +kernel

theorem witness_MirrorWriteShowsEveryGroup :
    (queuedMirror true).ram.wf ∧ (queuedMirror true).mirror.writing = true ∧
      (queuedMirror true).mirror.snapshot = mirrorGroups (working bound2) ∧
      (queuedMirror false).mirror.writePending = false ∧ (queuedMirror true).mirror.writePending = true ∧
      (queuedMirror true).phase = .running :=
  ⟨by decide, rfl, rfl, rfl, rfl, rfl⟩

theorem witness_NotifyTakesThePostedRequest :
    (∀ k ∈ [1, 2, 3, 4, 5, 6, 7, 8, 9], posted (slot ready (BitVec.ofNat 32 k) 0) (BitVec.ofNat 32 k)) ∧
      State.reset.phase ≠ .running ∧ postedSequence ready = ready.requests.lastAnswered := by
  simp only [posted]; decide +kernel

theorem witness_RequestsThatNoBlockTakesAreAnswered :
    (∀ k ∈ [0, 10, 0xFFFFFFFF],
      let code := BitVec.ofNat 32 k
      (slot ready code 0).ram.wf ∧ requestLaw (slot ready code 0) ∧ posted (slot ready code 0) code ∧
        (code = 0 ∨ 9 < code.toNat)) ∧
      [2, 0xFFFF].map (fun p => postedSequence (words ready [(0x40, p)])) = [2, 0xFFFF] ∧ ready.requests.lastAnswered = 0 := by
  simp only [posted, requestLaw]; decide +kernel

theorem witness_ClearCountersZeroesTheCounters :
    (slot queued 9 0).ram.wf ∧ requestLaw (slot queued 9 0) ∧ posted (slot queued 9 0) 9 := by
  simp only [posted, requestLaw]; decide +kernel

theorem witness_DistinctPairsGiveDistinctKeys : deriveKey secretOne 1 2 = deriveKey secretOne 1 2 := rfl

/-- A LOAD_SECRET posted with this strap, secret state and staged word. -/
def loading (strap : Bool) (state : SecretState) (m3 : Word) : State :=
  let s := words (withSecret state ready) [(0x40C, m3)]
  slot { s with straps := { s.straps with secretLoad := strap } } 6 0

theorem witness_LoadSecretChecksAndLoads :
    ∀ x ∈ [(false, SecretState.absent, (1 : Word)), (true, .sealed, 1), (true, .loaded, 0), (true, .absent, 1),
        (true, .loaded, 0x80000000)],
      (loading x.1 x.2.1 x.2.2).ram.wf ∧ requestLaw (loading x.1 x.2.1 x.2.2) ∧ posted (loading x.1 x.2.1 x.2.2) 6 ∧
        (loading x.1 x.2.1 x.2.2).straps.secretLoad = x.1 ∧ (loading x.1 x.2.1 x.2.2).derivation.state = x.2.1 ∧
        readRam (loading x.1 x.2.1 x.2.2) 0x40C = x.2.2 ∧ readRam (loading x.1 x.2.1 x.2.2) 0x400 = 0 := by
  simp only [posted, requestLaw]; decide +kernel

theorem witness_SealSecretSealsTheLoadedSecret :
    ∀ x ∈ [SecretState.absent, .loaded, .sealed],
      (slot (withSecret x ready) 7 0).ram.wf ∧ requestLaw (slot (withSecret x ready) 7 0) ∧
        posted (slot (withSecret x ready) 7 0) 7 ∧ (slot (withSecret x ready) 7 0).derivation.state = x := by
  simp only [posted, requestLaw]; decide +kernel

/-- The part at work with a key of site 2 being computed, withdrawn or not. -/
def computing (c : SiteChannel) (discarded : Bool) : State :=
  let s := working c
  setDerivation s { s.derivation with inProgress := some { site := 2, index := 2, lotNumber := 1, discarded := discarded } }

theorem witness_KeyRequestsAreQueuedAndWithdrawn :
    let s := working { bound2 with activity := .askingKey }
    let u := computing { bound2 with activity := .askingKey } false
    let v := computing { bound2 with activity := .withdrawingKey } false
    (channelOf s 2).activity = .askingKey ∧ (channelOf s 2).bound = some { index := 2, kind := .fresh } ∧
      s.derivation.inProgress = none ∧ s.derivation.waiting = [] ∧ (channelOf u 2).activity = .askingKey ∧
      u.derivation.inProgress ≠ none ∧ (channelOf v 2).activity = .withdrawingKey ∧ v.ram.wf := by
  decide +kernel

/-- A site that resumes index 2 and awaits its key, with this readback. -/
def resumingKey (x : Image) : State := computing { resumed2 with activity := .awaitingKey, readback := x } false

theorem witness_KeyDeliveryBeginsTheBurnOrDiscards :
    (∀ w ∈ [true, false],
      (computing { bound2 with activity := .awaitingKey } w).derivation.inProgress =
          some { site := 2, index := 2, lotNumber := 1, discarded := w } ∧
        (channelOf (computing { bound2 with activity := .awaitingKey } w) 2).activity = .awaitingKey ∧
        (channelOf (computing { bound2 with activity := .awaitingKey } w) 2).bound = some { index := 2, kind := .fresh }) ∧
      (channelOf (resumingKey halfBurnt) 2).bound = some { index := 2, kind := .resumed } ∧
      (∀ p, p < 192 → halfBurnt.getLsbD p = true → target12.getLsbD p = true) ∧
      (imageOfWords [0x0002, 0x0100, 0x005E]).getLsbD 38 = true ∧ target12.getLsbD 38 = false ∧
      ∀ q, q < 38 → (imageOfWords [0x0002, 0x0100, 0x005E]).getLsbD q = true → target12.getLsbD q = true := by
  decide +kernel

theorem witness_TargetImageHoldsItsFields :
    0 < 2 ^ 24 ∧ 0xFFFFFF < 2 ^ 24 ∧ (deriveKey secretOne 1 2).k0.extractLsb' 16 16 = 0x1514 ∧
      (deriveKey secretOne 1 2).k3.extractLsb' 0 16 = 0x0113 := by
  decide +kernel

theorem witness_BlowsOfEveryImageAreBounded : 0 < 2 ^ 24 ∧ 0xFFFFFF < 2 ^ 24 := by decide

theorem witness_PartBlownBindingIsNeverValid :
    2 < 2 ^ 24 ∧ target12 = composeTarget 1 2 (deriveKey secretOne 1 2) ∧
      (∀ p, p < 38 → halfBurnt.getLsbD p = true → target12.getLsbD p = true) ∧ validBinding halfBurnt = true :=
  ⟨by decide, rfl, by decide +kernel, by decide +kernel⟩

theorem witness_BlowOrderAndRemainingSet :
    0xFFFFFF < 2 ^ 24 ∧ SiteState.lock ∈ [SiteState.bind, .burn, .lock] ∧ 37 < 38 ∧ 48 ≤ 48 ∧ 191 < 192 := by decide

theorem witness_VerifyReadResults (p : Nat) (after : List Nat) (word : Half) :
    0 < 192 ∧ 191 < 192 ∧ ∃ bad : Nat → Bool, ∀ b, bad b = (word.getLsbD b && decide (p / 16 * 16 + b ≠ p) &&
      (!target12.getLsbD (p / 16 * 16 + b) || decide (p / 16 * 16 + b ∈ after))) :=
  ⟨by decide, by decide, _, fun _ => rfl⟩

/-- Four windows about the span 640..831: just before it, just after it, reversed, and around it. -/
def windowsA : List Window :=
  [{ enabled := true, first := 0, last := 639 }, { enabled := true, first := 832, last := 0xFFFF },
    { enabled := true, first := 1000, last := 990 }, { enabled := true, first := 831, last := 832 }]

theorem witness_ProfileFaultsInOrder :
    { profileA with windows := windowsA }.windows =
        [{ enabled := true, first := 0, last := 639 }, { enabled := true, first := 832, last := 0xFFFF },
          { enabled := true, first := 1000, last := 990 }, { enabled := true, first := 831, last := 832 }] ∧
      (∃ reversed : Window → Bool, ∀ w, reversed w = (w.enabled && decide (w.last.toNat < w.first.toNat))) ∧
      ∃ overlaps : Window → Bool, ∀ w, overlaps w = true ↔
        w.enabled = true ∧ ∃ p, p < 192 ∧ w.first.toNat ≤ 16 * profileA.baseWord + p ∧ 16 * profileA.baseWord + p ≤ w.last.toNat :=
  ⟨rfl, ⟨_, fun _ => rfl⟩, fun w => w.enabled && (List.range 192).any fun p =>
    decide (w.first.toNat ≤ 16 * profileA.baseWord + p ∧ 16 * profileA.baseWord + p ≤ w.last.toNat), fun w => by simp⟩

/-- A stored record whose image span ends at the last fuse number, its windows just before the span. -/
def storedLast : StoredProfile :=
  { dieType := 1, minWords := 256, baseWord := 244, baseWidth := 100, refTemp := 25, gain := 3, draw := 5, maxAttempts := 3
    responseLimit := 50, windows := List.replicate 4 { enabled := true, first := 0, last := 3903 } }

theorem witness_PassingProfileKeepsWindowsClear :
    storedLast.windows.length = 4 ∧ faultCode (usedProfile storedLast) 10 = 0 ∧
      ∃ w ∈ (usedProfile storedLast).windows, w.enabled = true := by
  decide +kernel

theorem witness_ProfileRecordIsReadAndClamped :
    (readProfile ready 7).windows[3]? = some { enabled := false, first := 0, last := 0 } := by decide +kernel

theorem witness_WidthsAndSlotTotalFollowTheArithmetic :
    1 ≤ 1 ∧ 1 ≤ 3 ∧ faultCode (usedProfile storedLast) (max 10 (min 4000 (10 : Word).toNat)) = 0 := by decide +kernel

theorem witness_ValidateProfileReports :
    ∀ k ∈ [7, 8, 0xFFFFFFFF],
      let n := BitVec.ofNat 32 k
      (slot ready 5 n).ram.wf ∧ requestLaw (slot ready 5 n) ∧ posted (slot ready 5 n) 5 ∧ readRam (slot ready 5 n) 0x48 = n := by
  simp only [posted, requestLaw]; decide +kernel

/-- An OPEN_LOT posted with this descriptor, on the worked profile 3 with its windows corrected or not. -/
def opening (s : State) (number first last profile first1 : Word) : State :=
  slot (words (workedProfile s 140 first1 990 1000 600) [(0x100, number), (0x104, first), (0x108, last), (0x10C, profile)]) 1 0

/-- The code and detail of the answer to an OPEN_LOT. -/
def openedAs (s : State) : List Nat := ((answerOf (after .openLot s)).drop 1).take 2

/-- Each check of R3 fails on its own at a boundary value, and a descriptor passes them all. -/
theorem witness_OpenLotChecksAndOpens :
    (∀ s ∈ [opening (withLot lotOne (withSecret .sealed ready)) 1 2 9 3 832, opening ready 1 2 9 3 832,
        opening (withSecret .sealed ready) 0 2 9 3 832, opening (withSecret .sealed ready) 1 9 8 3 832,
        opening (withSecret .sealed ready) 1 2 0x1000000 3 832, opening (withSecret .sealed ready) 1 2 9 8 832,
        opening (withSecret .sealed ready) 1 2 9 3 831, opening (withSecret .sealed ready) 1 0xFFFFFF 0xFFFFFF 3 832],
      s.ram.wf ∧ requestLaw s ∧ posted s 1) ∧
      [opening (withLot lotOne (withSecret .sealed ready)) 1 2 9 3 832, opening ready 1 2 9 3 832,
        opening (withSecret .sealed ready) 0 2 9 3 832, opening (withSecret .sealed ready) 1 9 8 3 832,
        opening (withSecret .sealed ready) 1 2 0x1000000 3 832, opening (withSecret .sealed ready) 1 2 9 8 832,
        opening (withSecret .sealed ready) 1 2 9 3 831, opening (withSecret .sealed ready) 1 0xFFFFFF 0xFFFFFF 3 832].map
          openedAs = [[2, 1], [2, 2], [3, 1], [3, 2], [3, 3], [3, 4], [3, 5], [1, 0x6E]] := by
  simp only [posted, requestLaw]; decide +kernel

theorem witness_CloseLotClosesOrDrains :
    (slot ready 2 0).lot.state = .noLot ∧ posted (slot ready 2 0) 2 ∧
      ∀ x ∈ [TouchdownState.idle, .waitLift, .settling, .active],
        let s := slot (withTouchdown x (withLot lotOne (withSecret .sealed ready))) 2 0
        s.ram.wf ∧ requestLaw s ∧ posted s 2 ∧ s.lot.state = .opened ∧ s.touchdown.state = x := by
  simp only [posted, requestLaw]; decide +kernel

/-- A request of this code and parameter posted against a lot with this resume list. -/
def listed (code param : Word) (entries : List ResumeEntry) : State :=
  slot (withLot { lotOne with resumeList := entries } (withSecret .sealed ready)) code param

theorem witness_SpoilIndexChecksAndSpoils :
    posted (slot ready 3 2) 3 ∧
      (∀ n ∈ [2, 4, 0xFFFFFF, 0x1000000],
        let s := listed 3 (BitVec.ofNat 32 n) [entry 2 1 none, entry 4 1 (some 15)]
        s.ram.wf ∧ requestLaw s ∧ posted s 3 ∧ (readRam s 0x48).toNat = n ∧ s.lot.state ≠ .noLot ∧
          s.lot.resumeList = [] ++ entry 2 1 none :: [entry 4 1 (some 15)] ∧
          s.lot.resumeList = [entry 2 1 none] ++ entry 4 1 (some 15) :: []) := by
  simp only [posted, requestLaw]; decide +kernel

theorem witness_ListResumeCopiesTheList :
    let s := listed 4 0 (List.replicate 64 (entry 2 1 none))
    s.ram.wf ∧ requestLaw s ∧ posted s 4 ∧ s.lot.state ≠ .noLot ∧ s.lot.resumeList[0]? = some (entry 2 1 none) ∧
      s.lot.resumeList[63]? = some (entry 2 1 none) ∧ posted (slot ready 4 0) 4 ∧ (slot ready 4 0).lot.state = .noLot := by
  simp only [posted, requestLaw]; decide +kernel

theorem witness_FreshClaimGrantsOrRefuses :
    ∀ l ∈ [lotOne, { lotOne with nextIndex := 10 }, { lotOne with state := .draining }],
      ∀ r ∈ [none, some InterruptReason.earlyLift],
        let s := withLot l (working { unbound with activity := .claimingFresh, interruption := r })
        s.ram.wf ∧ (channelOf s 2).activity = .claimingFresh ∧ (channelOf s 2).interruption = r ∧ s.lot.state ≠ .noLot ∧
          (s.lot.nextIndex = s.lot.last + 1 ∨ s.lot.state = .draining ∨ s.lot.state = .opened) := by
  decide +kernel

theorem witness_ResumeClaimGrantsOrRefuses :
    ∀ es ∈ [[], [entry 4 1 none, entry 2 1 none], [entry 4 1 none, entry 2 1 (some 0)], [entry 4 1 none, { entry 2 1 none with dieX := 2 }]],
      ∀ r ∈ [none, some InterruptReason.earlyLift],
        let s := withLot { lotOne with resumeList := es }
          (working { unbound with activity := .claimingResume, interruption := r, readback := halfBurnt })
        s.ram.wf ∧ (channelOf s 2).activity = .claimingResume ∧ (channelOf s 2).interruption = r ∧ s.lot.state ≠ .noLot ∧
          readbackIndex (channelOf s 2).readback = 2 ∧ validBinding (channelOf s 2).readback = true ∧
          (s.lot.resumeList = [] ∨ ∃ e ∈ s.lot.resumeList, e.index = 2 ∧ ∀ x ∈ [entry 4 1 none], x.index ≠ 2) := by
  decide +kernel

/-- A channel of the worked die with this report to make. -/
def reporting (c : SiteChannel) (l : LotController) (r : Report) : State :=
  withLot l (working { c with outcome := some .interrupted, activity := .reporting r })

theorem witness_ReportsSettleTheIndex :
    (∀ r ∈ [Report.commit, .spoil .burnFail, .hold],
      ∀ n ∈ [63, 64],
        let s := reporting bound2 { lotOne with resumeList := List.replicate n (entry 4 1 none) } r
        s.ram.wf ∧ (channelOf s 2).activity = .reporting r ∧ (channelOf s 2).bound = some { index := 2, kind := .fresh } ∧
          s.lot.state ≠ .noLot ∧ s.lot.freshBound ≠ 0 ∧ s.lot.resumeList.length = n) ∧
      ∀ r ∈ [Report.commit, .spoil .burnFail, .release],
        ∀ n ∈ [1, 2],
          let s := reporting resumed2 { lotOne with resumeList := [entry 4 1 none, entry 2 n (some 2), entry 5 1 none] } r
          s.ram.wf ∧ (channelOf s 2).activity = .reporting r ∧ (channelOf s 2).bound = some { index := 2, kind := .resumed } ∧
            s.lot.state ≠ .noLot ∧
            s.lot.resumeList = [entry 4 1 none] ++ entry 2 n (some 2) :: [entry 5 1 none] ∧
            ∀ x ∈ [entry 4 1 none] ++ [entry 5 1 none], x.index ≠ 2 := by
  decide +kernel

/-- A CLOSE_LOT in progress. -/
def closing (s : State) : State :=
  withLot { lotOne with state := .draining, freshBound := 0, committed := 1 }
    { s with requests := { s.requests with busy := true, inProgress := some { code := 2, params := [], sequence := 4 } } }

theorem witness_ContactEdgesAreTaken :
    (∀ x ∈ [TouchdownState.idle, .settling, .active, .waitLift],
      ∀ line ∈ [true, false],
        let s := withTouchdown x { ready with contactLine := line }
        s.contactLine = line ∧ s.phase = .running ∧ s.touchdown.state = x ∧ s.lot.state ≠ .draining ∧
          s.touchdown.endReason = none ∧ ∃ i, (channelOf s i).state ≠ .done) ∧
      State.reset.phase ≠ .running ∧ (closing (withTouchdown .settling ready)).ram.wf ∧
      (closing (withTouchdown .settling ready)).lot.state = .draining ∧
      (closing (withTouchdown .settling ready)).requests.inProgress.isSome = true ∧
      ∀ i, (channelOf (working { bound2 with state := .done }) i).state = .done := by
  decide +kernel

theorem witness_SettleExpiryTakesTheFrame :
    (settling.ram.wf ∧ settling.phase = .running ∧ settling.touchdown.state = .settling ∧ settling.touchdown.settleTimer ≠ none) ∧
      readRam (after (.notify 0) settling) 0x1000 = 1 ∧ readRam (after (.notify 0) ready) 0x1000 = 0 ∧
      (after (.notify 0) (closing settling)).lot.state = .draining ∧
      (after (.notify 0) (closing settling)).requests.inProgress.isSome = true ∧
      (readRam (after (.notify 0) settling) 0x1050 = 1 ∧ (0b0010 : SiteSet).getLsbD 1 = true ∧
        (0b0000 : SiteSet).getLsbD 1 = false ∧ (after (.notify 0) settling).lot.state ≠ .noLot) ∧
      (∃ u : BitVec 16, ∀ k, k < 16 →
        u.getLsbD k = ((0b0110 : SiteSet).getLsbD k && decide (k ≤ settling.straps.population.toNat))) := by
  refine ⟨by decide +kernel, by decide +kernel, by decide +kernel, by decide +kernel, by decide +kernel, by decide +kernel,
    0b0110, ?_⟩
  decide +kernel

theorem witness_SiteDoneFinishesTheFrame :
    let s := working { bound2 with state := .done, activity := .finished }
    let u := setChannel s 15 { channelOf s 15 with state := .check }
    let v := closing s
    let w := closing { s with touchdown := { s.touchdown with abortPending := true, endReason := some .aborted } }
    (s.ram.wf ∧ s.phase = .running ∧ s.touchdown.state = .active ∧ (channelOf s 2).activity = .finished ∧
        s.touchdown.activeFrame = some 0 ∧ ∀ j, (channelOf s j).state = .done) ∧
      (∃ j, (channelOf u j).state ≠ .done) ∧ v.lot.state = .draining ∧ v.requests.inProgress.isSome = true ∧
      w.touchdown.abortPending = true ∧ (withLot lotOne w).lot.state ≠ .draining ∧ w.requests.inProgress.isSome = true := by
  decide +kernel

theorem witness_AbortTouchdownInterruptsTheSites :
    ∀ x ∈ [TouchdownState.idle, .settling, .waitLift, .active],
      let s := slot (withTouchdown x (working bound2)) 8 0
      s.ram.wf ∧ requestLaw s ∧ posted s 8 ∧ s.touchdown.state = x := by
  simp only [posted, requestLaw]; decide +kernel

theorem witness_InterruptionGivesBackWhatIsOutstanding :
    ∀ a ∈ [Activity.resting, .finished, .reporting .commit, .starting, .naming .arm, .askingKey, .askingSlot, .exchanging .verifyRead,
        .claimingFresh, .claimingResume, .awaitingKey, .awaitingSlot, .pulsing],
      ∀ r ∈ [none, some InterruptReason.aborted],
        let s := working { bound2 with activity := a, interruption := r, interruptSent := some .earlyLift }
        s.ram.wf ∧ (channelOf s 2).interruptSent = some .earlyLift ∧ (channelOf s 2).activity = a ∧
          (channelOf s 2).interruption = r := by
  decide +kernel

theorem witness_SlotRequestsAreGrantedOrWait :
    let s := working { bound2 with activity := .askingSlot }
    let u := { s with rail := { s.rail with slotsInUse := 2 } }
    let v := working { bound2 with activity := .withdrawingSlot }
    (channelOf s 2).activity = .askingSlot ∧ s.rail.slotsInUse < s.rail.slotTotal ∧ s.rail.hold = false ∧
      (∀ j : Site, s.rail.waiting[j] = none) ∧ (channelOf u 2).activity = .askingSlot ∧ u.rail.slotTotal ≤ u.rail.slotsInUse ∧
      (channelOf v 2).activity = .withdrawingSlot ∧ v.ram.wf := by
  decide +kernel

/-- A scan with the hold clear grants sites 0 and 1 and leaves site 2; site 1 is withdrawing its request. -/
theorem witness_ScanGrantsInRoundRobinOrder :
    let r := setChannel (setChannel railNine 0 { bound2 with activity := .awaitingSlot }) 1
      { bound2 with activity := .withdrawingSlot }
    let s := { r with rail := { r.rail with hold := false } }
    ((((List.range 16).map fun k => s.rail.lastGranted + 1 + Fin.ofNat 16 k).filter fun j =>
        (s.rail.waiting[j]).isSome).take (s.rail.slotTotal - s.rail.slotsInUse)) = [0, 1] ∧
      s.rail.waiting[(0 : Site)] = some 2 ∧ s.rail.waiting[(1 : Site)] = some 1 ∧
      (channelOf s 0).activity = .awaitingSlot ∧ (channelOf s 1).activity = .withdrawingSlot := by
  decide +kernel

theorem witness_ScanGrants_rail_law : (workLaw queued ∧ railLaw queued) ∧ ∃ t, step queued = .next t :=
  ⟨⟨queued_laws.1, queued_laws.2.2⟩, _, queued_steps⟩

theorem witness_PulseEndAndCutFreeTheSlot :
    (pulsing .pulsing).rail.pulses[(2 : Site)] ≠ none ∧ (channelOf (pulsing .pulsing) 2).activity = .pulsing ∧
      (channelOf (pulsing .cutting) 2).activity ≠ .pulsing ∧ (pulsing .cutting).ram.wf ∧
      (channelOf (pulsing .cutting) 2).activity = .cutting ∧
      (working { bound2 with activity := .cutting }).rail.pulses[(2 : Site)] = none := by
  decide +kernel

/-- The trip value 1360 and the readings at the edges of each clause. -/
theorem witness_TemperatureReadingDecidesTheHold :
    max (-640) (min 2400 (readRam (words railNine [(0x84, 1360)]) 0x84).toInt) = (1360 : Int) ∧
      [1327, 1328, 1359, 1360, 5000, -5000].map (fun output : Int => max (-4096) (min 4095 output)) =
        [1327, 1328, 1359, 1360, 4095, -4096] ∧
      (words railNine [(0x84, 1360)]).rail.hold = true ∧ (words ready [(0x84, 1360)]).rail.hold = false ∧
      (resetting .softReset false).phase = .softReset ∧ ready.phase ≠ .softReset ∧ ready.phase ≠ .startupWaiting ∧
      ∀ whileZeroing : Bool, whileZeroing = false ∨
        (State.reset.phase = .softReset ∨ (State.reset.phase = .startupWaiting ∧ whileZeroing = true)) := by
  decide +kernel

theorem witness_ExchangesAreSentAndResent :
    (∀ task ∈ [LinkTask.ident, .verifyRead, .highRead, .disarm],
      (channelOf (working { bound2 with activity := .naming task }) 2).activity = .naming task ∧
        (portOf (working { bound2 with activity := .naming task }) 2).phase = .idle) ∧
      (∀ l ∈ [lotOne, LotController.afterPowerOn],
        let s := withLot l (working { unbound with state := .probe, activity := .starting })
        (channelOf s 2).activity = .starting ∧ (portOf s 2).phase = .idle ∧ s.ram.wf ∧ s.lot.state = l.state) ∧
      (channelOf (exchanging bound2 .arm (.arm 641)) 2).activity = .exchanging .arm ∧
      (portOf (exchanging bound2 .arm (.arm 641)) 2).phase = .listening ∧ (exchanging bound2 .arm (.arm 641)).ram.wf ∧
      ∀ known ∈ [true, false],
        ∀ x ∈ [LinkRequest.read 1 .high, .arm 641],
          let s := exchanging bound2 .verifyRead x
          let a : Option Half := if known then some 41 else none
          let u := setPort s 2 { portOf s 2 with phase := .draining, pointedAddress := a }
          (portOf u 2).phase = .draining ∧ (portOf u 2).exchange = some x ∧ (portOf u 2).pointedAddress = a := by
  decide +kernel

/-- A response short by one byte, one that does not sum to 0, and good ones: OK, refused, to a test frame, to a re-point. -/
theorem witness_ResponsesAreJudgedAtThePort :
    (∀ test ∈ [true, false], ∀ again ∈ [true, false],
      let s := exchanging bound2 .verifyRead (.read 1 .high)
      let u := setPort s 2 { portOf s 2 with testFrame := test, onRePoint := again, pointedAddress := some 41 }
      u.ram.wf ∧ (portOf u 2).phase = .listening ∧ (channelOf u 2).activity = .exchanging .verifyRead ∧
        currentRequest (portOf u 2) = some (if again then .point 41 else .read 1 .high)) ∧
      [0x00, 0x00, 0x01].length < 4 ∧ byteSum [0x00, 0x00, 0x01, 0xFE] ≠ 0 ∧ byteSum [0x00, 0x00, 0x01, 0xFF] = 0 ∧
      byteSum [0x0F, 0xF1] = 0 ∧ byteSum [0x00, 0x00] = 0 := by
  decide +kernel

/-- A response with its check byte is handed on while its exchange is in flight. -/
theorem handedOn_of_exchanging {c : SiteChannel} {task : LinkTask} {r : LinkRequest} (status : Byte) (data : List Byte)
    (check : Byte) (h : status ≠ 0x0F ∧ (status :: (data ++ [check])).length = expectedLength r status ∧
      byteSum (status :: (data ++ [check])) = 0) :
    handedOn (exchanging c task r) 2 task (status :: (data ++ [check])) status data :=
  ⟨rfl, rfl, rfl, fun _ => rfl, h.1, r, check, rfl, rfl, h.2⟩

/-- The sixteen-bit words of an image as response data. -/
def dataOf (x : Image) : List Byte := (List.range 24).map fun k => x.extractLsb' (8 * k) 8

/-- IDENT data at the boundaries of R93: the minimum fits, one word short, locked, another die type; a status that is not
OK with and without an index; and a POINT answered OK. -/
theorem witness_ScanResponsesAreActedOn :
    (exchanging unbound .ident .ident).ram.wf ∧
      handedOn (exchanging unbound .ident .ident) 2 .ident [0x00, 0x41, 0x2C, 0x40, 0x00, 0x00, 0x53] 0
        [0x41, 0x2C, 0x40, 0x00, 0x00] ∧
      handedOn (exchanging unbound .ident .ident) 2 .ident [0x00, 0x41, 0x2C, 0x3F, 0x00, 0x00, 0x54] 0
        [0x41, 0x2C, 0x3F, 0x00, 0x00] ∧
      handedOn (exchanging unbound .ident .ident) 2 .ident [0x00, 0x41, 0x2C, 0x40, 0x00, 0x01, 0x52] 0
        [0x41, 0x2C, 0x40, 0x00, 0x01] ∧
      handedOn (exchanging unbound .ident .ident) 2 .ident [0x00, 0x42, 0x2C, 0x40, 0x00, 0x00, 0x52] 0
        [0x42, 0x2C, 0x40, 0x00, 0x00] ∧
      handedOn (exchanging unbound .evalPoint (.point 40)) 2 .evalPoint [0x03, 0xFD] 3 [] ∧
      handedOn (exchanging bound2 .highPoint (.point 40)) 2 .highPoint [0x03, 0xFD] 3 [] ∧
      handedOn (exchanging unbound .blankPoint (.point 40)) 2 .blankPoint [0x00, 0x00] 0 [] :=
  ⟨by decide +kernel, handedOn_of_exchanging 0 [0x41, 0x2C, 0x40, 0x00, 0x00] 0x53 (by decide +kernel),
    handedOn_of_exchanging 0 [0x41, 0x2C, 0x3F, 0x00, 0x00] 0x54 (by decide +kernel),
    handedOn_of_exchanging 0 [0x41, 0x2C, 0x40, 0x00, 0x01] 0x52 (by decide +kernel),
    handedOn_of_exchanging 0 [0x42, 0x2C, 0x40, 0x00, 0x00] 0x52 (by decide +kernel),
    handedOn_of_exchanging 3 [] 0xFD (by decide +kernel), handedOn_of_exchanging 3 [] 0xFD (by decide +kernel),
    handedOn_of_exchanging 0 [] 0x00 (by decide +kernel)⟩

/-- The readbacks of the scan: blank, valid with the lot's tag, valid with another tag, not valid. -/
theorem witness_ScanResponses_readbacks :
    ([(0 : Image), halfBurnt, target12, imageOfWords [0x0002, 0x0100]].all fun x =>
      (dataOf x).length == 24 &&
        (List.range 192).all fun p => x.getLsbD p == ((dataOf x).getD (p / 8) 0).getLsbD (p % 8)) = true ∧
      handedOn (exchanging unbound .blankRead (.read 12 .low)) 2 .blankRead (0 :: (dataOf 0 ++ [0])) 0 (dataOf 0) ∧
      handedOn (exchanging unbound .evalRead (.read 12 .normal)) 2 .evalRead
        (0 :: (dataOf halfBurnt ++ [- byteSum (dataOf halfBurnt)])) 0 (dataOf halfBurnt) ∧
      handedOn (exchanging unbound .onlyRead (.read 12 .normal)) 2 .onlyRead
        (0 :: (dataOf target12 ++ [- byteSum (dataOf target12)])) 0 (dataOf target12) ∧
      validBinding halfBurnt = true ∧ readbackTag halfBurnt = lotOne.number.extractLsb' 0 8 ∧
      validBinding (imageOfWords [0x0002, 0x0100]) = false ∧
      readbackTag halfBurnt ≠ ({ lotOne with number := 2 } : LotController).number.extractLsb' 0 8 :=
  ⟨by decide +kernel, handedOn_of_exchanging _ _ _ (by decide +kernel), handedOn_of_exchanging _ _ _ (by decide +kernel),
    handedOn_of_exchanging _ _ _ (by decide +kernel), by decide +kernel, by decide +kernel, by decide +kernel,
    by decide +kernel⟩

/-- The answers to ARM and DISARM, and the three results of a verify read. -/
theorem witness_BurnResponsesAreActedOn :
    (handedOn (exchanging bound2 .arm (.arm 641)) 2 .arm [1, 0xFF] 1 [] ∧
        handedOn (exchanging bound2 .arm (.arm 641)) 2 .arm [2, 0xFE] 2 [] ∧
        handedOn (exchanging bound2 .arm (.arm 641)) 2 .arm [3, 0xFD] 3 [] ∧
        handedOn (exchanging bound2 .arm (.arm 641)) 2 .arm [4, 0xFC] 4 [] ∧
        handedOn (exchanging bound2 .disarm .disarm) 2 .disarm [3, 0xFD] 3 []) ∧
      (handedOn (exchanging bound2 .verifyRead (.read 1 .high)) 2 .verifyRead [0, 2, 0, 0xFE] 0 [2, 0] ∧
        handedOn (exchanging bound2 .verifyRead (.read 1 .high)) 2 .verifyRead [0, 0, 0, 0] 0 [0, 0] ∧
        handedOn (exchanging bound2 .verifyRead (.read 1 .high)) 2 .verifyRead [0, 4, 0, 0xFC] 0 [4, 0]) ∧
      bound2.target = some target12 ∧ bound2.remaining = 1 :: bound2.remaining.tail ∧
      [0x02, 0x00, 0x04].map (verifyTest target12 1 bound2.remaining.tail) = [.verified, .notBlown, .unexpectedBlow 2] ∧
      bound2.attempt < bound2.maxAttempts ∧ bound2.maxAttempts ≤ { bound2 with attempt := 3 }.attempt :=
  ⟨⟨handedOn_of_exchanging 1 [] 0xFF (by decide +kernel), handedOn_of_exchanging 2 [] 0xFE (by decide +kernel),
      handedOn_of_exchanging 3 [] 0xFD (by decide +kernel), handedOn_of_exchanging 4 [] 0xFC (by decide +kernel),
      handedOn_of_exchanging 3 [] 0xFD (by decide +kernel)⟩,
    ⟨handedOn_of_exchanging 0 [2, 0] 0xFE (by decide +kernel), handedOn_of_exchanging 0 [0, 0] 0 (by decide +kernel),
      handedOn_of_exchanging 0 [4, 0] 0xFC (by decide +kernel)⟩,
    rfl, by decide +kernel, by decide +kernel, by decide, by decide⟩

/-- The final check: a readback equal to the target passes both parts; a blown position that is not targeted, and a targeted
one that reads intact, fail them. -/
theorem witness_BurnResponses_final_check :
    handedOn (exchanging bound2 .lowRead (.read 12 .low)) 2 .lowRead
        (0 :: (dataOf target12 ++ [- byteSum (dataOf target12)])) 0 (dataOf target12) ∧
      handedOn (exchanging bound2 .highRead (.read 12 .high)) 2 .highRead
        (0 :: (dataOf halfBurnt ++ [- byteSum (dataOf halfBurnt)])) 0 (dataOf halfBurnt) ∧
      overblownAt target12 target12 = none ∧ underblownAt target12 target12 = none ∧
      overblownAt target12 (target12 ||| 1) = some 0 ∧ underblownAt target12 halfBurnt = some 47 :=
  ⟨handedOn_of_exchanging _ _ _ (by decide +kernel), handedOn_of_exchanging _ _ _ (by decide +kernel), by decide +kernel,
    by decide +kernel, by decide +kernel, by decide +kernel⟩

end Sys2Proof.Tests
end

