-- ==== Sys2Proof/Proofs/ListRequests.lean ====
section
/-!
The two requests about the resume list, SPOIL_INDEX (R16) and LIST_RESUME (R17): what each answers case by case, what the
resume-list copy holds, and the obligations about them.
-/

namespace Sys2Proof.Machine

/-! ## A request that is answered within its command -/

/-- What `answer` changes in a state with a request in progress: the exchange RAM, the request unit, and the attention bit
REQUEST_DONE. -/
theorem answer_changes {s : State} {r : Request} (hr : s.requests.inProgress = some r) (code : AnswerCode) (detail : Word)
    (results : List Word) :
    answer s code detail results =
      { s with
        ram := (answer s code detail results).ram
        requests := (answer s code detail results).requests
        attention := s.attention ||| 2 } := by
  rw [← answer_attention hr code detail results]
  unfold answer
  rw [hr]
  rfl

/-- An answer leaves the waiting notification as it is, so with none waiting the slot is not examined again (R171). -/
theorem reexamine_of_answered {s t : State} {q : Half} {code : AnswerCode} {detail : Word} {results : List Word}
    (h : answered s t q code detail results) (hn : s.requests.pendingNotify = false) : reexamine t = t := by
  obtain ⟨-, -, -, hrequests⟩ := h
  exact reexamine_of_none (by rw [hrequests]; exact hn)

/-- As `accept_answers`, when the lot controller has acted on the request before the answer. -/
theorem accept_setLot_answers {s : State} (h : RamOk s) (l : LotController) (code : AnswerCode) (detail : Word)
    (results : List Word) (hl : results.length ≤ 4) :
    answered s (answer (setLot (accept s) l) code detail results) (postedSequence s) code detail results :=
  answered_congr (answer_answers (s := setLot (accept s) l) h (accept_inProgress s) code detail results hl) rfl rfl

/-! ## SPOIL_INDEX, case by case (R16) -/

/-- Whatever the case, SPOIL_INDEX sets the lot controller and answers. -/
theorem spoilIndex_answers (s : State) : ∃ l code detail results,
    results.length ≤ 4 ∧ spoilIndex s = answer (setLot s l) code detail results := by
  unfold spoilIndex
  dsimp only
  split
  · exact ⟨s.lot, _, _, _, by simp, rfl⟩
  · split
    · exact ⟨s.lot, _, _, _, by simp, rfl⟩
    · split
      · exact ⟨s.lot, _, _, _, by simp, rfl⟩
      · split
        · exact ⟨s.lot, _, _, _, by simp, rfl⟩
        · exact ⟨_, _, _, _, by simp, rfl⟩

theorem spoilIndex_noLot {s : State} (h : s.lot.state = .noLot) : spoilIndex s = answer s .badState 0 [] := by
  simp [spoilIndex, h]

theorem spoilIndex_beyondRange {s : State} (h : s.lot.state ≠ .noLot) (hn : 0xFFFFFF < (paramWord s 0).toNat) :
    spoilIndex s = answer s .badParameter 0 [] := by
  simp [spoilIndex, h, hn]

theorem spoilIndex_notListed {s : State} (h : s.lot.state ≠ .noLot) (hn : (paramWord s 0).toNat ≤ 0xFFFFFF)
    (he : entryOf s.lot (paramWord s 0).toNat = none) : spoilIndex s = answer s .notHeld 0 [] := by
  simp [spoilIndex, h, not_lt.mpr hn, he]

theorem spoilIndex_claimed {s : State} {e : ResumeEntry} {i : Site} (h : s.lot.state ≠ .noLot)
    (hn : (paramWord s 0).toNat ≤ 0xFFFFFF) (he : entryOf s.lot (paramWord s 0).toNat = some e)
    (hc : e.claimedBy = some i) : spoilIndex s = answer s .inUse (natWord i.val) [] := by
  simp [spoilIndex, h, not_lt.mpr hn, he, hc]

theorem spoilIndex_unclaimed {s : State} {e : ResumeEntry} (h : s.lot.state ≠ .noLot)
    (hn : (paramWord s 0).toNat ≤ 0xFFFFFF) (he : entryOf s.lot (paramWord s 0).toNat = some e)
    (hc : e.claimedBy = none) :
    spoilIndex s = answer (setLot s (spoilListed s.lot (paramWord s 0).toNat)) .done 9
      [paramWord s 0, natWord (spoilListed s.lot (paramWord s 0).toNat).spoiled] := by
  simp [spoilIndex, h, not_lt.mpr hn, he, hc, SpoilCause.code]

/-- Spoiling a listed index removes its entry, closes the gap and counts it (R8, R13). -/
theorem spoilListed_split {l : LotController} {n : Nat} {before after : List ResumeEntry} {e : ResumeEntry}
    (hl : l.resumeList = before ++ e :: after) (he : e.index = n) (h : ∀ x ∈ before, x.index ≠ n) :
    spoilListed l n = { l with spoiled := l.spoiled + 1, resumeList := before ++ after } := by
  simp [spoilListed, entryOf_split hl he h, removeEntry_split hl he h]

/-- A posted SPOIL_INDEX is carried out and answered, and nothing further is examined. -/
theorem exec_spoilIndex_of_posted {s : State} (hram : s.ram.wf) (hlaw : requestLaw s) (hp : posted s 3) :
    exec .spoilIndex s = .next (spoilIndex (accept s)) := by
  obtain ⟨l, code, detail, results, hl, heq⟩ := spoilIndex_answers (accept s)
  have hans := accept_setLot_answers hram l code detail results hl
  show execSpoilIndex s = _
  rw [execSpoilIndex, if_pos (takesRequest_of_posted hp), heq,
    reexamine_of_answered hans (pendingNotify_of_posted hlaw hp)]

/-- What an accepted SPOIL_INDEX can change. -/
theorem spoilIndex_accept_changes (s : State) :
    spoilIndex (accept s) =
      { s with
        ram := (spoilIndex (accept s)).ram
        requests := (spoilIndex (accept s)).requests
        attention := s.attention ||| 2
        lot := (spoilIndex (accept s)).lot } := by
  obtain ⟨l, code, detail, results, -, heq⟩ := spoilIndex_answers (accept s)
  rw [heq]
  have hlot : (answer (setLot (accept s) l) code detail results).lot = l := by simp
  rw [hlot]
  exact answer_changes (s := setLot (accept s) l) (accept_inProgress s) code detail results

/-- SPOIL_INDEX touches only the answer fields of the exchange RAM. -/
theorem spoilIndex_accept_outside {s : State} (hram : RamOk s) : ramOutside s (spoilIndex (accept s)) [answerFields] := by
  obtain ⟨l, code, detail, results, hl, heq⟩ := spoilIndex_answers (accept s)
  rw [heq]
  exact ramOutside_congr (answer_outside (s := setLot (accept s) l) hram code detail results hl) rfl rfl

/-- Settles O43: one case of R16 after another. -/
theorem spoilIndexChecksAndSpoils : Obligations.SpoilIndexChecksAndSpoils := by
  intro s n hram hlaw hp hn
  have hparam : paramWord (accept s) 0 = n := (paramWord_accept s (by decide)).trans hn.symm
  have unchanged (code : AnswerCode) (detail : Word) (h : spoilIndex (accept s) = answer (accept s) code detail []) :
      (spoilIndex (accept s)).lot = s.lot ∧ answered s (spoilIndex (accept s)) (postedSequence s) code detail [] := by
    rw [h]
    exact ⟨by simp, accept_answers hram code detail [] (by simp)⟩
  refine ⟨spoilIndex (accept s), exec_spoilIndex_of_posted hram hlaw hp, spoilIndex_accept_changes s,
    spoilIndex_accept_outside hram, ?noLot, ?beyondRange, ?notListed, ?listed⟩
  case noLot =>
    intro hstate
    exact unchanged _ _ (spoilIndex_noLot hstate)
  case beyondRange =>
    intro hstate hbig
    exact unchanged _ _ (spoilIndex_beyondRange hstate (hparam ▸ hbig))
  case notListed =>
    intro hstate hsmall hnone
    exact unchanged _ _ (spoilIndex_notListed hstate (hparam ▸ hsmall) (hparam ▸ entryOf_none hnone))
  case listed =>
    intro before e after hstate hsmall hlist he hbefore
    have hsmall' : (paramWord (accept s) 0).toNat ≤ 0xFFFFFF := hparam ▸ hsmall
    have hentry : entryOf (accept s).lot (paramWord (accept s) 0).toNat = some e :=
      hparam ▸ entryOf_split hlist he hbefore
    refine ⟨fun i hclaim => unchanged _ _ (spoilIndex_claimed hstate hsmall' hentry hclaim), fun hfree => ?_⟩
    rw [spoilIndex_unclaimed (s := accept s) hstate hsmall' hentry hfree, hparam, show (accept s).lot = s.lot from rfl,
      spoilListed_split hlist he hbefore]
    exact ⟨by simp, accept_setLot_answers hram _ _ _ _ (by simp)⟩

/-! ## The resume-list copy (R17) -/

/-- The words that the copy is written with: eight for each entry that has a place. -/
theorem resumeCopyWords_flatten_length (es : List ResumeEntry) : (es.map resumeCopyWords).flatten.length = 8 * es.length := by
  induction es with
  | nil => rfl
  | cons e es ih =>
    rw [List.map_cons, List.flatten_cons, List.length_append, ih, List.length_cons]
    simp only [resumeCopyWords, List.length_cons, List.length_nil]
    omega

/-- Word `j` of place `k` is word `j` of the k-th entry. -/
theorem resumeCopyWords_flatten_getElem? {es : List ResumeEntry} {k j : Nat} {e : ResumeEntry} (he : es[k]? = some e)
    (hj : j < 8) : (es.map resumeCopyWords).flatten[8 * k + j]? = (resumeCopyWords e)[j]? := by
  induction es generalizing k with
  | nil => simp at he
  | cons x es ih =>
    have hlen : (resumeCopyWords x).length = 8 := rfl
    rw [List.map_cons, List.flatten_cons]
    cases k with
    | zero =>
      obtain rfl : x = e := by simpa using he
      rw [List.getElem?_append_left (by omega), Nat.mul_zero, Nat.zero_add]
    | succ k =>
      rw [List.getElem?_append_right (by omega), hlen, show 8 * (k + 1) + j - 8 = 8 * k + j by omega]
      exact ih (by simpa using he)

/-- The copy touches only the resume-list copy area. -/
theorem writeResumeCopy_outside {s : State} (h : RamOk s) : ramOutside s (writeResumeCopy s) [(0x3000, 0x800)] := by
  refine ramOutside_trans (ramOutside_zeroRam s atResumeCopy (32 * Config.resumePlaces))
    (ramOutside_mono (ramOutside_writeRamWords (zeroRam_ok h _ _) _ _) fun a ha r hr => ?_)
  have hout := ha _ (List.mem_singleton.mpr rfl)
  rw [List.mem_singleton.mp hr, resumeCopyWords_flatten_length, List.length_take]
  simp only [atResumeCopy, Config.resumePlaces] at hout ⊢
  omega

/-- Word `j` of place `k` of the copy. -/
theorem readRam_writeResumeCopy {s : State} (h : RamOk s) {k j : Nat} {e : ResumeEntry} (hk : k < 64)
    (he : s.lot.resumeList[k]? = some e) (hj : j < 8) :
    readRam (writeResumeCopy s) (0x3000 + 32 * k + 4 * j) = (resumeCopyWords e).getD j 0 := by
  have htake : (s.lot.resumeList.take 64)[k]? = some e := by rw [List.getElem?_take_of_lt hk, he]
  have hword := resumeCopyWords_flatten_getElem? htake hj
  have hlen := resumeCopyWords_flatten_length (s.lot.resumeList.take 64)
  have hplaces : (s.lot.resumeList.take 64).length ≤ 64 := List.length_take_le _ _
  obtain ⟨hk', -⟩ := List.getElem?_eq_some_iff.mp htake
  have hread := readRam_writeRamWords_at (zeroRam_ok h 0x3000 0x800) (8 * k + j)
    (show 0x3000 + 32 * k + 4 * j = 0x3000 + 4 * (8 * k + j) by omega)
    (show 8 * k + j < ((s.lot.resumeList.take 64).map resumeCopyWords).flatten.length by omega)
    (by simp only [Config.ramBytes]; omega)
  refine Eq.trans hread ?_
  rw [List.getD_eq_getElem?_getD, ← hword, List.getElem?_eq_getElem (by omega)]
  rfl

/-- The places after the last entry hold 0. -/
theorem readByte_writeResumeCopy_rest {s : State} (h : RamOk s) {a : Nat}
    (ha : 0x3000 + 32 * s.lot.resumeList.length ≤ a) (ha' : a < 0x3800) : readByte (writeResumeCopy s).ram a = 0 := by
  have hlen := resumeCopyWords_flatten_length (s.lot.resumeList.take 64)
  rw [List.length_take] at hlen
  have hkept := readByte_writeWords_of_out (zeroRange_wf h 0x3000 0x800) (a := 0x3000) (a' := a)
    (ws := ((s.lot.resumeList.take 64).map resumeCopyWords).flatten) (by omega)
  refine Eq.trans hkept ?_
  rw [readByte_zeroRange, if_pos (by omega)]

/-! ## LIST_RESUME (R17) -/

theorem listResume_accept_noLot {s : State} (h : s.lot.state = .noLot) :
    listResume (accept s) = answer (accept s) .badState 0 [] := by
  simp [listResume, h]

theorem listResume_accept_lot {s : State} (h : s.lot.state ≠ .noLot) :
    listResume (accept s) = answer (writeResumeCopy (accept s)) .done 0 [natWord s.lot.resumeList.length] := by
  simp [listResume, h]

/-- The answer after the copy, from the state before the request: the copy area holds no answer field. -/
theorem accept_writeResumeCopy_answers {s : State} (h : RamOk s) (code : AnswerCode) (detail : Word) (results : List Word)
    (hl : results.length ≤ 4) :
    answered s (answer (writeResumeCopy (accept s)) code detail results) (postedSequence s) code detail results := by
  obtain ⟨hword, hdetail, hresults, hrequests⟩ :=
    answer_answers (s := writeResumeCopy (accept s)) (writeResumeCopy_ok h) (accept_inProgress s) code detail results hl
  refine ⟨hword, hdetail, fun k hk => ?_, hrequests⟩
  have hkept : readRam (writeResumeCopy (accept s)) (0x6C + 4 * k) = readRam (accept s) (0x6C + 4 * k) :=
    readRam_of_ramOutside (writeResumeCopy_outside h) (by simp only [List.mem_singleton, forall_eq]; omega)
  rw [hresults k hk, hkept]
  rfl

/-- A posted LIST_RESUME is carried out and answered, and nothing further is examined. -/
theorem exec_listResume_of_posted {s : State} (hram : s.ram.wf) (hlaw : requestLaw s) (hp : posted s 4) :
    exec .listResume s = .next (listResume (accept s)) := by
  have hn := pendingNotify_of_posted hlaw hp
  show execListResume s = _
  rw [execListResume, if_pos (takesRequest_of_posted hp)]
  by_cases hstate : s.lot.state = .noLot
  · rw [listResume_accept_noLot hstate, reexamine_of_answered (accept_answers hram _ _ [] (by simp)) hn]
  · rw [listResume_accept_lot hstate, reexamine_of_answered (accept_writeResumeCopy_answers hram _ _ _ (by simp)) hn]

/-- What an accepted LIST_RESUME can change. -/
theorem listResume_accept_changes (s : State) :
    listResume (accept s) =
      { s with
        ram := (listResume (accept s)).ram
        requests := (listResume (accept s)).requests
        attention := s.attention ||| 2 } := by
  by_cases hstate : s.lot.state = .noLot
  · rw [listResume_accept_noLot hstate]
    exact answer_changes (accept_inProgress s) _ _ _
  · rw [listResume_accept_lot hstate]
    exact answer_changes (s := writeResumeCopy (accept s)) (accept_inProgress s) _ _ _

/-- Settles O44: in a lot, the copy is written and the answer after it leaves the copy area alone. -/
theorem listResumeCopiesTheList : Obligations.ListResumeCopiesTheList := by
  intro s hram hlaw hp
  refine ⟨listResume (accept s), exec_listResume_of_posted hram hlaw hp, listResume_accept_changes s, ?noLot, ?lot⟩
  case noLot =>
    intro hstate
    rw [listResume_accept_noLot hstate]
    exact ⟨accept_answers hram _ _ [] (by simp), answer_outside (s := accept s) hram _ _ [] (by simp)⟩
  case lot =>
    intro hstate
    rw [listResume_accept_lot hstate]
    have hanswer := answer_outside (s := writeResumeCopy (accept s)) (writeResumeCopy_ok hram) .done 0
      [natWord s.lot.resumeList.length] (by simp)
    refine ⟨accept_writeResumeCopy_answers hram _ _ _ (by simp), ?outside, ?entries, ?rest⟩
    case outside =>
      exact ramOutside_trans
        (ramOutside_mono (writeResumeCopy_outside hram) fun a ha r hr => ha r (List.mem_cons_of_mem _ hr))
        (ramOutside_mono hanswer fun a ha r hr => ha r (by simp [List.mem_singleton.mp hr]))
    case entries =>
      intro k a e hk he ha
      have word (j : Nat) (hj : j < 8) :
          readRam (answer (writeResumeCopy (accept s)) .done 0 [natWord s.lot.resumeList.length]) (a + 4 * j) =
            (resumeCopyWords e).getD j 0 := by
        rw [readRam_of_ramOutside hanswer (by simp only [List.mem_singleton, forall_eq]; omega), ha]
        exact readRam_writeResumeCopy hram hk he hj
      refine ⟨word 0 (by decide), word 1 (by decide), word 2 (by decide), word 3 (by decide), word 4 (by decide),
        (word 5 (by decide)).trans ?_, word 6 (by decide), word 7 (by decide)⟩
      cases hc : e.claimedBy <;> simp [resumeCopyWords, hc]
    case rest =>
      intro a ha ha'
      rw [hanswer a (by simp only [List.mem_singleton, forall_eq]; omega)]
      exact readByte_writeResumeCopy_rest hram ha ha'

end Sys2Proof.Machine
end

