-- ==== Sys2Proof/Proofs/DistinctKeys.lean ====
section
/-!
The derivation as a chain of rounds that can be undone (R33, R37), and the law of distinct keys.
-/

namespace Sys2Proof.Machine

/-! ## One round and its undoing -/

theorem rotateRight_rotateLeft {w : Nat} (x : BitVec w) (r : Nat) : (x.rotateLeft r).rotateRight r = x := by
  ext i hi
  have hr : r % w < w := Nat.mod_lt r (by omega)
  rw [BitVec.getElem_rotateRight]
  split
  case isTrue hlow =>
    rw [BitVec.getElem_rotateLeft, dif_neg (by omega)]
    congr 1
    omega
  case isFalse hhigh =>
    rw [BitVec.getElem_rotateLeft, dif_pos (by omega)]
    congr 1
    omega

/-- A word that was combined with a mask and rotated comes back when it is rotated back and combined with the mask. -/
theorem rotateRight_xor_rotateLeft {w : Nat} (x mask : BitVec w) (r : Nat) :
    ((x ^^^ mask).rotateLeft r).rotateRight r ^^^ mask = x := by
  rw [rotateRight_rotateLeft, BitVec.xor_assoc, BitVec.xor_self, BitVec.xor_zero]

/-- The undoing goes through the words of a round in the reverse of the order in which the round wrote them: each sum and
each rotation is taken back with the words that the round made it from (R37). -/
theorem undoRound_keyRound (m : Word) (k : Key) : undoRound m (keyRound m k) = k := by
  simp only [undoRound, keyRound, BitVec.add_sub_cancel, rotateRight_xor_rotateLeft]

/-! ## The four rounds -/

theorem undoRounds_deriveKey (m : Secret) (lot index : Word) :
    undoRound m.m0 (undoRound m.m1 (undoRound m.m2 (undoRound m.m3 (deriveKey m lot index)))) =
      { k0 := lot, k1 := index, k2 := 0, k3 := 0 } := by
  simp only [deriveKey, undoRound_keyRound]

/-- The law of distinct keys: equal keys are undone to equal starting words (R37). -/
theorem deriveKey_injective {m : Secret} {lot index lot' index' : Word}
    (h : deriveKey m lot index = deriveKey m lot' index') : lot = lot' ∧ index = index' := by
  have hstart : ({ k0 := lot, k1 := index, k2 := 0, k3 := 0 } : Key) = { k0 := lot', k1 := index', k2 := 0, k3 := 0 } := by
    rw [← undoRounds_deriveKey m lot index, h, undoRounds_deriveKey]
  obtain ⟨hlot, hindex, -, -⟩ := Key.mk.inj hstart
  exact ⟨hlot, hindex⟩

/-- Settles O25: the rounds as defined, their undoing, and from it the law of distinct keys. -/
theorem distinctPairsGiveDistinctKeys : Obligations.DistinctPairsGiveDistinctKeys := by
  refine ⟨?round, ?undoing, ?fourRounds, undoRound_keyRound, undoRounds_deriveKey, fun _ _ _ _ _ => deriveKey_injective⟩
  case round =>
    rintro m a b c d _ _ _ _ rfl rfl rfl rfl
    rfl
  case undoing =>
    rintro m a b c d _ _ _ _ rfl rfl rfl rfl
    rfl
  case fourRounds =>
    intro m0 m1 m2 m3 lot index
    rfl

end Sys2Proof.Machine
end

