-- ==== Sys2Proof/Proofs/ProfileChecks.lean ====
section
/-!
The structural tests of a profile as one ordered list (R63, R64), and VALIDATE_PROFILE, which reports the first that fails
(R66).
-/

namespace Sys2Proof.Machine

/-! ## The windows (R64; R63, orders 3 to 10) -/

/-- The ends of a window that is not reversed tell whether it shares a fuse with the span: the larger of the two first fuses
is such a fuse. A reversed window holds no fuse, whatever its ends. -/
theorem windowOverlaps_iff_shares_fuse (u : Profile) {w : Window} (h : w.first.toNat ≤ w.last.toNat) :
    windowOverlaps u w = true ↔
      ∃ p, p < 192 ∧ w.first.toNat ≤ 16 * u.baseWord + p ∧ 16 * u.baseWord + p ≤ w.last.toNat := by
  rw [windowOverlaps, Bool.and_eq_true, decide_eq_true_iff, decide_eq_true_iff, spanFirst, spanLast]
  constructor
  · rintro ⟨hfirst, hlast⟩
    exact ⟨max w.first.toNat (16 * u.baseWord) - 16 * u.baseWord, by omega, by omega, by omega⟩
  · rintro ⟨p, hp, hfirst, hlast⟩
    omega

/-- The tests of the windows with their fault codes, in order from window `k`. -/
def windowTests (reversed overlaps : Window → Bool) : List Window → Nat → List (Bool × Nat)
  | [], _ => []
  | w :: ws, k => (reversed w, 16 + k) :: (overlaps w, 32 + k) :: windowTests reversed overlaps ws (k + 1)

/-- `windowFault` is the code of the first window test that fails. -/
theorem windowTests_find? {u : Profile} {reversed overlaps : Window → Bool}
    (hreversed : ∀ w, reversed w = (w.enabled && decide (w.last.toNat < w.first.toNat)))
    (hoverlaps : ∀ w, overlaps w = true ↔
      w.enabled = true ∧ ∃ p, p < 192 ∧ w.first.toNat ≤ 16 * u.baseWord + p ∧ 16 * u.baseWord + p ≤ w.last.toNat)
    (ws : List Window) (k : Nat) :
    ((windowTests reversed overlaps ws k).find? (·.1)).map (·.2) =
      if windowFault u ws k = 0 then none else some (windowFault u ws k) := by
  induction ws generalizing k with
  | nil => rfl
  | cons w ws ih =>
    rw [windowTests, windowFault, ← hreversed w]
    cases hr : reversed w with
    | true => simp
    | false =>
      have hoverlap : overlaps w = (w.enabled && windowOverlaps u w) := by
        rw [Bool.eq_iff_iff, hoverlaps w, Bool.and_eq_true]
        refine and_congr_right fun henabled => (windowOverlaps_iff_shares_fuse u ?_).symm
        simpa [hreversed w, henabled] using hr
      rw [← hoverlap]
      cases ho : overlaps w with
      | true => simp
      | false => simpa using ih (k + 1)

/-! ## The order of the tests (R63) -/

/-- Settles O36: the die type and the span stand before the tests of the windows, the draw after them. -/
theorem profileFaultsInOrder : Obligations.ProfileFaultsInOrder := by
  intro u capacity w0 w1 w2 w3 reversed overlaps hwindows hreversed hoverlaps
  have hfind := windowTests_find? hreversed hoverlaps u.windows 0
  have hlist : [(reversed w0, 16), (overlaps w0, 32), (reversed w1, 17), (overlaps w1, 33), (reversed w2, 18),
      (overlaps w2, 34), (reversed w3, 19), (overlaps w3, 35), (decide (capacity < u.draw), 3)] =
      windowTests reversed overlaps u.windows 0 ++ [(decide (capacity < u.draw), 3)] := by rw [hwindows]; rfl
  rw [hlist, faultCode]
  by_cases hdie : u.dieType = 0
  · simp [hdie]
  rw [List.find?_cons_of_neg (by simpa using hdie), if_neg hdie]
  by_cases hspan : u.minWords < u.baseWord + 12
  · simp [hspan]
  rw [List.find?_cons_of_neg (by simpa using hspan), if_neg hspan, List.find?_append, Option.map_or, hfind]
  by_cases hwindow : windowFault u u.windows 0 = 0
  · by_cases hdraw : capacity < u.draw <;> simp [hwindow, hdraw]
  · simp [hwindow]

/-! ## VALIDATE_PROFILE, case by case (R66) -/

theorem validateProfile_beyondTable {s : State} (h : 7 < (paramWord s 0).toNat) :
    validateProfile s = answer s .badParameter 1 [] := by
  simp [validateProfile, h]

theorem validateProfile_inTable {s : State} (h : (paramWord s 0).toNat ≤ 7) :
    validateProfile s =
      answer s .done (paramWord s 0)
        (let stored := readProfile s (paramWord s 0).toNat
         let capacity := readRam s atRailCapacity
         let fault := faultCode (usedProfile stored) (usedCapacity capacity)
         [natWord fault, natWord (clampMask stored capacity),
           if fault = 0 then natWord (slotTotalOf (usedCapacity capacity) (usedProfile stored).draw) else 0,
           if fault = 1 ∨ fault = 2 then 0 else natWord (spanFirst (usedProfile stored))]) := by
  simp only [validateProfile, if_neg (not_lt.mpr h)]

/-- Whatever the profile number, VALIDATE_PROFILE does nothing but answer. -/
theorem validateProfile_answers (s : State) : ∃ code detail results,
    results.length ≤ 4 ∧ validateProfile s = answer s code detail results := by
  rcases Nat.lt_or_ge 7 (paramWord s 0).toNat with h | h
  · exact ⟨_, _, _, by simp, validateProfile_beyondTable h⟩
  · exact ⟨_, _, _, by simp, validateProfile_inTable h⟩

/-- A posted VALIDATE_PROFILE is carried out and answered, and nothing further is examined. -/
theorem exec_validateProfile_of_posted {s : State} (hram : s.ram.wf) (hlaw : requestLaw s) (hp : posted s 5) :
    exec .validateProfile s = .next (validateProfile (accept s)) := by
  obtain ⟨code, detail, results, hl, heq⟩ := validateProfile_answers (accept s)
  show execValidateProfile s = _
  rw [execValidateProfile, if_pos (takesRequest_of_posted hp), heq,
    reexamine_of_answered (accept_answers hram code detail results hl) (pendingNotify_of_posted hlaw hp)]

/-- What an accepted VALIDATE_PROFILE can change: the answer with its attention bit. -/
theorem validateProfile_accept_frame {s : State} (hram : s.ram.wf) :
    validateProfile (accept s) =
        { s with
          ram := (validateProfile (accept s)).ram
          requests := (validateProfile (accept s)).requests
          attention := s.attention ||| 2 } ∧
      ramOutside s (validateProfile (accept s)) [answerFields] := by
  obtain ⟨code, detail, results, hl, heq⟩ := validateProfile_answers (accept s)
  rw [heq]
  exact ⟨answer_changes (accept_inProgress s) code detail results,
    answer_outside (s := accept s) hram code detail results hl⟩

/-- Settles O40: the answer in each of the two cases, under one frame. -/
theorem validateProfileReports : Obligations.ValidateProfileReports := by
  intro s n p fault mask hram hlaw hp hn hprofile hfault hmask
  have hparam : paramWord (accept s) 0 = n := (paramWord_accept s (by decide)).trans hn.symm
  obtain ⟨hchanges, houtside⟩ := validateProfile_accept_frame hram
  refine ⟨validateProfile (accept s), exec_validateProfile_of_posted hram hlaw hp, hchanges, houtside,
    ?beyondTable, ?inTable⟩
  case beyondTable =>
    intro hbig
    rw [validateProfile_beyondTable (hparam ▸ hbig)]
    exact accept_answers hram _ _ [] (by simp)
  case inTable =>
    intro hsmall
    rw [validateProfile_inTable (hparam ▸ hsmall), hparam]
    subst hmask hfault hprofile
    exact accept_answers hram .done n _ (by simp)

end Sys2Proof.Machine
end

