-- ==== Sys2Proof/Proofs/WidthsAndSlots.lean ====
section
/-!
The widths of the pulses of one touchdown (R128 to R130) and the slot total with its bound on the peak current (R118, R119).
-/

namespace Sys2Proof.Machine

/-! ## Clamping as a minimum and a maximum -/

theorem clampNat_eq_max_min {lo hi : Nat} (h : lo ≤ hi) (x : Nat) : clampNat lo hi x = max lo (min hi x) := by
  rw [clampNat]
  split_ifs <;> omega

theorem clampInt_eq_max_min {lo hi : Int} (h : lo ≤ hi) (x : Int) : clampInt lo hi x = max lo (min hi x) := by
  rw [clampInt]
  split_ifs <;> omega

theorem usedProfile_draw (p : StoredProfile) : (usedProfile p).draw = max 5 (min 1000 p.draw.toNat) :=
  clampNat_eq_max_min (by decide) _

theorem usedProfile_baseWidth (p : StoredProfile) :
    (usedProfile p).baseWidth = max 10 (min 2000 p.baseWidth.toNat) :=
  clampNat_eq_max_min (by decide) _

theorem usedCapacity_eq (capacity : Word) : usedCapacity capacity = max 10 (min 4000 capacity.toNat) :=
  clampNat_eq_max_min (by decide) _

/-! ## The width W1 (R128, R129) -/

theorem widthDegrees_eq (reading : Int) : widthDegrees reading = max (-40) (min 150 (reading.fdiv 16)) := by
  rw [widthDegrees, clampInt_eq_max_min (by decide), Int.fdiv_eq_ediv_of_nonneg _ (by decide)]

theorem widthFactor_eq (u : Profile) (reading : Int) :
    widthFactor u reading = max 128 (min 512 (256 + (u.gain : Int) * (u.refTemp - widthDegrees reading))) :=
  clampInt_eq_max_min (by decide) _

theorem widthFactor_bounds (u : Profile) (reading : Int) : 128 ≤ widthFactor u reading ∧ widthFactor u reading ≤ 512 := by
  rw [widthFactor_eq]
  omega

theorem natCast_baseWidthAt (u : Profile) (reading : Int) :
    (baseWidthAt u reading : Int) = ((u.baseWidth : Int) * widthFactor u reading).fdiv 256 := by
  have hfactor : ((widthFactor u reading).toNat : Int) = widthFactor u reading :=
    Int.toNat_of_nonneg (by have := widthFactor_bounds u reading; omega)
  rw [baseWidthAt, Int.fdiv_eq_ediv_of_nonneg _ (by decide), Int.natCast_ediv, Int.natCast_mul, hfactor]
  rfl

/-- The ends of the width's range are those of the base width times those of the factor: 10 · 128 / 256 and
2000 · 512 / 256. -/
theorem baseWidthAt_bounds {u : Profile} (hlo : 10 ≤ u.baseWidth) (hhi : u.baseWidth ≤ 2000) (reading : Int) :
    5 ≤ baseWidthAt u reading ∧ baseWidthAt u reading ≤ 4000 := by
  have hfactor := widthFactor_bounds u reading
  have hleast : 10 * 128 ≤ u.baseWidth * (widthFactor u reading).toNat := Nat.mul_le_mul hlo (by omega)
  have hmost : u.baseWidth * (widthFactor u reading).toNat ≤ 2000 * 512 := Nat.mul_le_mul hhi (by omega)
  rw [baseWidthAt]
  omega

/-! ## The width of each attempt and the law of pulse width (R130) -/

theorem pulseWidth_one (u : Profile) (reading : Int) : pulseWidth u reading 1 = min 4000 (baseWidthAt u reading) := rfl

theorem pulseWidth_two (u : Profile) (reading : Int) :
    pulseWidth u reading 2 = min 4000 (3 * baseWidthAt u reading / 2) := rfl

theorem pulseWidth_three (u : Profile) (reading : Int) : pulseWidth u reading 3 = min 4000 (2 * baseWidthAt u reading) := rfl

theorem pulseWidth_bounds {u : Profile} {reading : Int} (h : 5 ≤ baseWidthAt u reading) {a : Nat} (h1 : 1 ≤ a) (h3 : a ≤ 3) :
    5 ≤ pulseWidth u reading a ∧ pulseWidth u reading a ≤ 4000 := by
  obtain rfl | rfl | rfl : a = 1 ∨ a = 2 ∨ a = 3 := by omega
  · rw [pulseWidth_one]; omega
  · rw [pulseWidth_two]; omega
  · rw [pulseWidth_three]; omega

theorem pulseWidth_le_next (u : Profile) (reading : Int) {a : Nat} (h1 : 1 ≤ a) (h3 : a < 3) :
    pulseWidth u reading a ≤ pulseWidth u reading (a + 1) := by
  obtain rfl | rfl : a = 1 ∨ a = 2 := by omega
  · rw [pulseWidth_one, pulseWidth_two]; omega
  · rw [pulseWidth_two, pulseWidth_three]; omega

/-! ## The slot total (R118, R119) -/

theorem slotTotalOf_mul_le (capacity draw : Nat) : slotTotalOf capacity draw * draw ≤ capacity :=
  (Nat.mul_le_mul_right draw (min_le_right 16 (capacity / draw))).trans (Nat.div_mul_le_self capacity draw)

theorem one_le_slotTotalOf {capacity draw : Nat} (hpos : 0 < draw) (hle : draw ≤ capacity) :
    1 ≤ slotTotalOf capacity draw :=
  le_min (by decide) (Nat.div_pos hle hpos)

/-- A profile that passes has passed the last test, that of the draw (R63, fault 3). -/
theorem draw_le_of_faultCode_eq_zero {u : Profile} {capacity : Nat} (h : faultCode u capacity = 0) : u.draw ≤ capacity := by
  rw [faultCode] at h
  split_ifs at h with _ _ hwindow hdraw
  · exact absurd h hwindow
  · exact not_lt.mp hdraw

/-- Settles O39: W1 within its bounds gives the widths and their law; the draw, which is at least 5, gives the slot total. -/
theorem widthsAndSlotTotalFollowTheArithmetic : Obligations.WidthsAndSlotTotalFollowTheArithmetic := by
  intro stored u hu
  have hbase : u.baseWidth = max 10 (min 2000 stored.baseWidth.toNat) := hu ▸ usedProfile_baseWidth stored
  have hdraw : u.draw = max 5 (min 1000 stored.draw.toNat) := hu ▸ usedProfile_draw stored
  constructor
  case left =>
    intro reading deg f w hdeg hf hw
    have hW1 : (baseWidthAt u reading : Int) = w := by
      rw [natCast_baseWidthAt, widthFactor_eq, widthDegrees_eq, ← hdeg, ← hf, hw]
    obtain ⟨hlo, hhi⟩ := baseWidthAt_bounds (u := u) (by omega) (by omega) reading
    rw [pulseWidth_one, pulseWidth_two, pulseWidth_three, Int.fdiv_eq_ediv_of_nonneg _ (by decide)]
    refine ⟨by omega, by omega, by omega, by omega, by omega, fun a h1 h3 => ?_⟩
    obtain ⟨hleast, hmost⟩ := pulseWidth_bounds hlo h1 h3
    exact ⟨hleast, hmost, pulseWidth_le_next u reading h1⟩
  case right =>
    rintro capacity c rfl
    exact ⟨hdraw, usedCapacity_eq capacity, rfl, slotTotalOf_mul_le _ _,
      fun hpass => one_le_slotTotalOf (by omega) (draw_le_of_faultCode_eq_zero hpass)⟩

end Sys2Proof.Machine
end

section
/-!
CLEAR_COUNTERS (R153): a loop that modifies the port of every site, what it leaves of the state and of each port, and the
obligation about the request.
-/

namespace Sys2Proof.Machine

/-! ## A loop that modifies the port of each site once -/

theorem portOf_forSites_modifyPort_of_notMem (f : LinkPort → LinkPort) {sites : List Site} {j : Site} (hj : j ∉ sites)
    (s : State) : portOf (forSites sites (fun s i => modifyPort s i f) s) j = portOf s j := by
  induction sites generalizing s with
  | nil => rfl
  | cons i sites ih =>
    obtain ⟨hne, hrest⟩ := not_or.mp (mt List.mem_cons.mpr hj)
    exact (ih hrest (modifyPort s i f)).trans (portOf_modifyPort_ne s i f j hne)

/-- The port of a site that occurs once in the list is modified once: the other sites leave it alone. -/
theorem portOf_forSites_modifyPort_of_mem (f : LinkPort → LinkPort) {sites : List Site} (hnodup : sites.Nodup) {j : Site}
    (hj : j ∈ sites) (s : State) : portOf (forSites sites (fun s i => modifyPort s i f) s) j = f (portOf s j) := by
  induction sites generalizing s with
  | nil => exact absurd hj List.not_mem_nil
  | cons i sites ih =>
    obtain ⟨hi, hrest⟩ := List.nodup_cons.mp hnodup
    rcases List.mem_cons.mp hj with rfl | hj'
    · exact (portOf_forSites_modifyPort_of_notMem f hi (modifyPort s j f)).trans (portOf_modifyPort s j f)
    · have hne : j ≠ i := fun e => hi (e ▸ hj')
      exact (ih hrest hj' (modifyPort s i f)).trans (congrArg f (portOf_modifyPort_ne s i f j hne))

theorem allSites_nodup : Config.allSites.Nodup := by decide

theorem mem_allSites : ∀ i : Site, i ∈ Config.allSites := by decide

/-! ## CLEAR_COUNTERS (R153) -/

theorem zeroCounters_touchdown (s : State) :
    (zeroCounters s).touchdown = { s.touchdown with total := 0, bounced := 0, planless := 0, overlapped := 0 } := by
  unfold zeroCounters
  dsimp only
  rw [setTouchdown_touchdown, forSites_keeps (fun s => s.touchdown) (by simp)]

theorem portOf_zeroCounters (s : State) (i : Site) :
    portOf (zeroCounters s) i = { portOf s i with counters := LinkCounters.zero } := by
  unfold zeroCounters
  dsimp only
  rw [portOf_setTouchdown, portOf_forSites_modifyPort_of_mem _ allSites_nodup (mem_allSites i)]

theorem clearCounters_touchdown (s : State) : (clearCounters s).touchdown = (zeroCounters s).touchdown := by
  simp [clearCounters]

theorem portOf_clearCounters (s : State) (i : Site) : portOf (clearCounters s) i = portOf (zeroCounters s) i := by
  simp [clearCounters, portOf]

/-- The request that the answer finds in progress after the counters are set to 0 is the one accepted. -/
theorem zeroCounters_accept_inProgress (s : State) :
    (zeroCounters (accept s)).requests.inProgress =
      some { code := readRam s atRequestCode, params := slotParams s, sequence := postedSequence s } := by
  simp [accept_inProgress]

/-- As `accept_answers`, when the counters are set to 0 before the answer. -/
theorem clearCounters_accept_answers {s : State} (hram : RamOk s) :
    answered s (clearCounters (accept s)) (postedSequence s) .done 0 [] :=
  answered_congr
    (answer_answers (by simpa using hram) (zeroCounters_accept_inProgress s) .done 0 [] (by simp))
    (by simp) (by simp [accept_pendingNotify])

theorem clearCounters_accept_outside {s : State} (hram : RamOk s) :
    ramOutside s (clearCounters (accept s)) [answerFields] :=
  ramOutside_congr (answer_outside (s := zeroCounters (accept s)) (by simpa using hram) .done 0 [] (by simp))
    (by simp) rfl

/-- What an accepted CLEAR_COUNTERS can change: read field by field, the attention bits, the touchdown, and the blocks that
`clearCounters_keeps` names. -/
theorem clearCounters_accept_changes (s : State) :
    clearCounters (accept s) =
      { s with
        ram := (clearCounters (accept s)).ram
        requests := (clearCounters (accept s)).requests
        attention := s.attention ||| 2
        ports := (clearCounters (accept s)).ports
        touchdown := { s.touchdown with total := 0, bounced := 0, planless := 0, overlapped := 0 } } := by
  have hattention : (clearCounters (accept s)).attention = s.attention ||| 2 :=
    (answer_attention (zeroCounters_accept_inProgress s) .done 0 []).trans (by simp)
  have htouchdown : (clearCounters (accept s)).touchdown =
      { s.touchdown with total := 0, bounced := 0, planless := 0, overlapped := 0 } := by
    rw [clearCounters_touchdown, zeroCounters_touchdown]
    simp
  have hkept := clearCounters_keeps (accept s)
  generalize clearCounters (accept s) = t at hattention htouchdown hkept ⊢
  cases t
  simp_all only [accept_keeps]

theorem portOf_clearCounters_accept (s : State) (i : Site) :
    portOf (clearCounters (accept s)) i = { portOf s i with counters := LinkCounters.zero } := by
  rw [portOf_clearCounters, portOf_zeroCounters]
  rfl

/-- A posted CLEAR_COUNTERS is carried out and answered, and nothing further is examined. -/
theorem exec_clearCounters_of_posted {s : State} (hram : s.ram.wf) (hlaw : requestLaw s) (hp : posted s 9) :
    exec .clearCounters s = .next (clearCounters (accept s)) := by
  show execClearCounters s = _
  rw [execClearCounters, if_pos (takesRequest_of_posted hp),
    reexamine_of_answered (clearCounters_accept_answers hram) (pendingNotify_of_posted hlaw hp)]

/-- Settles O24: the loop over all sites zeroes each port's counters, and the answer leaves ports and touchdown alone. -/
theorem clearCountersZeroesTheCounters : Obligations.ClearCountersZeroesTheCounters := by
  intro s hram hlaw hp
  exact ⟨clearCounters (accept s), exec_clearCounters_of_posted hram hlaw hp, clearCounters_accept_changes s,
    portOf_clearCounters_accept s, clearCounters_accept_answers hram, clearCounters_accept_outside hram⟩

end Sys2Proof.Machine
end

section
/-!
The requests that no block takes: an unknown code (R167) and a wrong sequence (R168). Either is answered at once, so what
such an answer leaves and when an examination gives it is all that the obligation needs.
-/

namespace Sys2Proof.Machine

/-! ## An answer at once -/

/-- What an answer at once changes: the exchange RAM, the request unit, and the attention bit REQUEST_DONE. -/
theorem answerAtOnce_changes (s : State) (code : AnswerCode) (detail : Word) :
    answerAtOnce s code detail =
      { s with
        ram := (answerAtOnce s code detail).ram
        requests := (answerAtOnce s code detail).requests
        attention := s.attention ||| 2 } := by
  rw [← answerAtOnce_attention s code detail]
  rfl

/-- An idle request unit has no request in progress (R164). -/
theorem inProgress_of_idle {s : State} (h : requestLaw s) (hidle : s.requests.busy = false) :
    s.requests.inProgress = none := by
  obtain ⟨hbusy, -, -⟩ := h
  rw [hidle] at hbusy
  simpa using hbusy.symm

/-- What an answer at once does to a state whose request unit is idle: its frame, and the answer in the slot. -/
theorem answerAtOnce_of_idle {s : State} (hram : s.ram.wf) (hlaw : requestLaw s) (hidle : s.requests.busy = false)
    (code : AnswerCode) (detail : Word) :
    answerAtOnce s code detail =
        { s with
          ram := (answerAtOnce s code detail).ram
          requests := (answerAtOnce s code detail).requests
          attention := s.attention ||| 2 } ∧
      answered s (answerAtOnce s code detail) (postedSequence s) code detail [] ∧
      ramOutside s (answerAtOnce s code detail) [answerFields] :=
  ⟨answerAtOnce_changes s code detail,
    answerAtOnce_answers hram hidle (inProgress_of_idle hlaw hidle) code detail,
    answerAtOnce_outside hram code detail⟩

/-! ## When the slot is answered at once -/

/-- The codes that name no request (R167). -/
theorem knownCode_eq_false_iff {code : Word} : knownCode code = false ↔ code = 0 ∨ 9 < code.toNat := by
  have hzero : code = 0 ↔ code.toNat = 0 := BitVec.toNat_inj.symm
  simp only [knownCode, Bool.and_eq_false_iff, decide_eq_false_iff_not, hzero]
  omega

theorem notifyUnit_of_idle {s : State} (hrunning : s.phase = .running) (hidle : s.requests.busy = false) :
    notifyUnit s = examine s := by
  simp [notifyUnit, mayExamine, hrunning, hidle]

/-- A new request with an unknown code is answered UNKNOWN, and the slot is not examined again (R167). -/
theorem examine_of_unknownCode {s : State} (hnew : postedSequence s = s.requests.lastAnswered + 1)
    (hcode : knownCode (readRam s atRequestCode) = false) :
    examine s = answerAtOnce s .unknown (readRam s atRequestCode) := by
  have hold : postedSequence s ≠ s.requests.lastAnswered := by bv_omega
  have hslot : slotIsNew s = true := decide_eq_true hnew
  simp [examine, examineOnce, hold, hslot, hcode]

/-- A posted sequence that is neither A nor A + 1 is answered SEQUENCE, and the slot is not examined again (R168). -/
theorem examine_of_wrongSequence {s : State} (hold : postedSequence s ≠ s.requests.lastAnswered)
    (hnew : postedSequence s ≠ s.requests.lastAnswered + 1) :
    examine s = answerAtOnce s .sequence (s.requests.lastAnswered.setWidth 32) := by
  have hslot : slotIsNew s = false := decide_eq_false hnew
  simp [examine, examineOnce, hold, hslot]

/-- The command of an unknown code and the NOTIFY that finds the code give the same answer. -/
theorem exec_unknown_of_posted {s : State} {code : Word} (hp : posted s code) (hcode : code = 0 ∨ 9 < code.toNat)
    (value : Word) :
    exec .unknown s = .next (answerAtOnce s .unknown code) ∧
      exec (.notify value) s = .next (answerAtOnce s .unknown code) := by
  obtain ⟨hrunning, hidle, hnew, rfl⟩ := hp
  have hunknown := knownCode_eq_false_iff.mpr hcode
  constructor
  · show execUnknown s = _
    simp [execUnknown, mayExamine, slotIsNew, hrunning, hidle, hnew, hunknown]
  · show execNotify value s = _
    rw [execNotify, notifyUnit_of_idle hrunning hidle, examine_of_unknownCode hnew hunknown]

theorem exec_notify_of_wrongSequence {s : State} (hrunning : s.phase = .running) (hidle : s.requests.busy = false)
    (hold : postedSequence s ≠ s.requests.lastAnswered) (hnew : postedSequence s ≠ s.requests.lastAnswered + 1)
    (value : Word) :
    exec (.notify value) s = .next (answerAtOnce s .sequence (s.requests.lastAnswered.setWidth 32)) := by
  show execNotify value s = _
  rw [execNotify, notifyUnit_of_idle hrunning hidle, examine_of_wrongSequence hold hnew]

/-- Settles O23: in both clauses the next state is that of an answer at once by an idle request unit. -/
theorem requestsThatNoBlockTakesAreAnswered : Obligations.RequestsThatNoBlockTakesAreAnswered := by
  intro value s hram hlaw
  constructor
  · intro code hp hcode
    have ⟨_, hidle, _⟩ := hp
    obtain ⟨hunknown, hnotify⟩ := exec_unknown_of_posted hp hcode value
    exact ⟨_, hunknown, hnotify, answerAtOnce_of_idle hram hlaw hidle .unknown code⟩
  · intro hrunning hidle hold hnew
    exact ⟨_, exec_notify_of_wrongSequence hrunning hidle hold hnew value,
      answerAtOnce_of_idle hram hlaw hidle .sequence _⟩

end Sys2Proof.Machine
end

section
/-!
What a command can do, said once: `Effect c s t` has one case for each thing that a command `c` can make of a state `s`, with
the condition under which it does. Every law that the steps keep is proved by a case split over it. With it, the obligations
about the queue and the outcomes.
-/

namespace Sys2Proof.Machine

/-! ## The effects of the commands -/

/-- The start-up ends: the identity block is written, and CONTACT is followed (R181). -/
def startedUp (s : State) : State := followContact { writeIdentity s with phase := .running }

/-- Steps 1 to 4 of a soft reset (R182). -/
def softlyReset (order : List Site) (s : State) : State :=
  { writeIdentity (resetStepThree (resetClosure (resetStepOne s) order)) with phase := .softReset }

/-- Steps 5 to 7 of a soft reset (R182). -/
def softResetEnded (s : State) : State :=
  { raise (followContact (setRail { s with attention := 0 } { s.rail with hold := false })) .resetDone with
    phase := .running }

/-- A channel takes an interruption that it was sent (R110). -/
def takeInterruption (s : State) (i : Site) (reason : InterruptReason) : State :=
  modifyChannel s i fun c => { c with interruptSent := none, interruption := some reason }

/-- A key request joins the waiting ones, and begins when the engine is idle (R35). -/
def queueKey (s : State) (i : Site) (b : BoundIndex) : DerivationUnit :=
  let d := { s.derivation with waiting := s.derivation.waiting ++ [{ site := i, index := b.index }] }
  if s.derivation.inProgress.isNone then beginNextKey s.lot d else d

/-- What a command makes of a state. -/
inductive Effect : Instr → State → State → Prop
  | unchanged (c : Instr) (s : State) : Effect c s s
  | powerOnReset (p : BitVec 4) (b : Bool) (s : State) :
      Effect (.powerOnReset p b) s
        { State.reset with
          straps := { population := p, secretLoad := b }, contactLine := s.contactLine, pending := s.pending }
  | startupEnd {s : State} (h : s.phase = .startupReady) : Effect .startupEnd s (examineIfPending (startedUp s))
  | softReset (order : List Site) {s : State} (h : s.phase = .running) :
      Effect (.softReset order) s (softlyReset order s)
  | softResetEnd {s : State} (h : s.phase = .softReset) : Effect .softResetEnd s (examineIfPending (softResetEnded s))
  | enables (e : BitVec 6) (s : State) : Effect (.interruptEnables e) s { s with enables := e }
  | attention (value : Word) (s : State) : Effect (.attentionWrite value) s (clearAttention s value)
  | hostWrite (offset : Word) (lanes : BitVec 4) (value : Word) {s : State} (h : offset.toNat < Config.ramBytes) :
      Effect (.hostRamWrite offset lanes value) s
        (writeRam s (offset.toNat / 4 * 4) (mergeLanes lanes (readRam s (offset.toNat / 4 * 4)) value))
  | notify (value : Word) (s : State) : Effect (.notify value) s (notifyUnit s)
  | request (c : Instr) {code : Word} {s : State} (h : posted s code) (hcode : knownCode code = true)
      (hc : ∀ order, c ≠ .softReset order) (hc' : ∀ early, c ≠ .mirrorWriteEnd early) :
      Effect c s (reexamine (carryOut code (accept s)))
  | unknown {s : State} (h : mayExamine s = true) : Effect .unknown s (answerAtOnce s .unknown (readRam s atRequestCode))
  | rise {s : State} (h : s.phase = .running) : Effect .contactRise s (takeRise { s with contactLine := true })
  | riseUntaken {s : State} (h : s.phase ≠ .running) : Effect .contactRise s { s with contactLine := true }
  | fall {s : State} (h : s.phase = .running) : Effect .contactFall s (takeFall { s with contactLine := false })
  | fallUntaken {s : State} (h : s.phase ≠ .running) : Effect .contactFall s { s with contactLine := false }
  | settleExpiry (m : LatchMoment) {s : State} (h : s.touchdown.state = .settling) (hp : s.phase = .running) :
      Effect (.settleExpiry m) s (considerFrame (notifyUnit (latch s m.contactSense)) m.late)
  | siteDone {i : Site} {s : State} (h : s.touchdown.state = .active) (ha : (channelOf s i).activity = .finished) :
      Effect (.siteDone i) s (setActivity s i .resting)
  | frameDone {i : Site} {f : Fin 2} {s : State} (h : s.touchdown.state = .active)
      (ha : (channelOf s i).activity = .finished) (hf : s.touchdown.activeFrame = some f)
      (hd : allDone (setActivity s i .resting) = true) :
      Effect (.siteDone i) s (finishFrame (setActivity s i .resting) f)
  | interruptionIgnored (i : Site) (s : State) :
      Effect (.interruption i) s (modifyChannel s i fun c => { c with interruptSent := none })
  | interruptionDisposes {i : Site} {reason : InterruptReason} {s : State}
      (ha : (channelOf s i).activity = .starting ∨ (∃ t, (channelOf s i).activity = .naming t) ∨
        (channelOf s i).activity = .askingKey ∨ (channelOf s i).activity = .askingSlot) :
      Effect (.interruption i) s (dispose (takeInterruption s i reason) i)
  | interruptionAbandons {i : Site} {reason : InterruptReason} {s : State}
      (ha : ∃ t, (channelOf s i).activity = .exchanging t) :
      Effect (.interruption i) s (dispose (abandon (takeInterruption s i reason) i) i)
  | interruptionAwaitsClaim {i : Site} {reason : InterruptReason} {s : State}
      (ha : (channelOf s i).activity = .claimingFresh ∨ (channelOf s i).activity = .claimingResume) :
      Effect (.interruption i) s (takeInterruption s i reason)
  | interruptionWithdraws {i : Site} {reason : InterruptReason} {s : State} {a : Activity}
      (ha : ((channelOf s i).activity, a) ∈
        [(Activity.awaitingKey, Activity.withdrawingKey), (.awaitingSlot, .withdrawingSlot), (.pulsing, .cutting)]) :
      Effect (.interruption i) s (setActivity (takeInterruption s i reason) i a)
  | freshGranted {i : Site} {n : Nat} {s : State} (ha : (channelOf s i).activity = .claimingFresh)
      (hl : s.lot.state ≠ .noLot) (hn : freshAnswer s.lot = .granted n) {t : State}
      (ht : ∃ u, u = (modifyChannel (setLot s (afterFreshClaim s.lot)) i fun c =>
        { c with bound := some { index := n, kind := .fresh }, pulseGranted := false, activity := .askingKey }) ∧
          (t = u ∨ t = dispose u i)) :
      Effect (.freshClaim i) s t
  | freshRefused {i : Site} {s : State} (ha : (channelOf s i).activity = .claimingFresh) (hl : s.lot.state ≠ .noLot)
      {t : State} (ht : t = dispose s i ∨ ∃ o, t = endDie s i o .none) :
      Effect (.freshClaim i) s t
  | resumeGranted {i : Site} {s : State} (ha : (channelOf s i).activity = .claimingResume) (hl : s.lot.state ≠ .noLot)
      {n : Nat} (hn : n = readbackIndex (channelOf s i).readback) {t : State}
      (ht : ∃ u, u = (modifyChannel (setLot s (updateEntry s.lot n fun e => { e with claimedBy := some i })) i fun c =>
        { c with bound := some { index := n, kind := .resumed }, activity := .askingKey }) ∧ (t = u ∨ t = dispose u i)) :
      Effect (.resumeClaim i) s t
  | resumeRefused {i : Site} {s : State} (ha : (channelOf s i).activity = .claimingResume) (hl : s.lot.state ≠ .noLot)
      {t : State} (ht : t = dispose s i ∨ t = notListed s i ∨ ∃ g : SiteChannel → Figures,
        t = endDie (modifyChannel s i fun c => { c with figures := g c }) i .bindingMismatch .none) :
      Effect (.resumeClaim i) s t
  | report {c : Instr} {i : Site} {r : Report} {s : State} (hc : c = .hold i ∨ c = .release i ∨ c = .commit i ∨ c = .spoil i)
      (ha : (channelOf s i).activity = .reporting r) (hl : s.lot.state ≠ .noLot) : Effect c s (takeReport s i r)
  | keyRequest {i : Site} {b : BoundIndex} {s : State} (ha : (channelOf s i).activity = .askingKey)
      (hb : (channelOf s i).bound = some b) :
      Effect (.keyRequest i) s (setActivity (setDerivation s (queueKey s i b)) i .awaitingKey)
  | keyDelivered {i : Site} {k : Key} {s : State} (ha : (channelOf s i).activity = .awaitingKey) :
      Effect .keyDelivery s (takeKey (setDerivation s (beginNextKey s.lot s.derivation)) i k)
  | keyDiscarded (s : State) : Effect .keyDelivery s (setDerivation s (beginNextKey s.lot s.derivation))
  | keyWithdrawal {i : Site} {s : State} (ha : (channelOf s i).activity = .withdrawingKey) :
      Effect (.keyWithdrawal i) s (dispose (setDerivation s (withdrawKey s.derivation i)) i)
  | slotGranted {i : Site} {s : State} (ha : (channelOf s i).activity = .askingSlot) (hf : slotFree s.rail = true) :
      Effect (.slotRequest i) s (grant s i (channelOf s i).attempt)
  | slotAwaited {i : Site} {s : State} (ha : (channelOf s i).activity = .askingSlot) :
      Effect (.slotRequest i) s
        (setActivity (setRail s { s.rail with waiting := s.rail.waiting.set i (some (channelOf s i).attempt) }) i .awaitingSlot)
  | slotWithdrawal {i : Site} {s : State} (ha : (channelOf s i).activity = .withdrawingSlot) :
      Effect (.slotWithdrawal i) s (dispose (setRail s { s.rail with waiting := s.rail.waiting.set i none }) i)
  | pulseEnd {i : Site} {s : State} (hp : s.rail.pulses[i] ≠ none) :
      Effect (.pulseEnd i) s
        (scan (if (channelOf s i).activity = .pulsing then setActivity (stopPulse s i) i (.naming .verifyPoint)
          else stopPulse s i))
  | pulseCut {i : Site} {s : State} (ha : (channelOf s i).activity = .cutting) (hp : s.rail.pulses[i] ≠ none) :
      Effect (.pulseCut i) s (dispose (scan (stopPulse s i)) i)
  | cutFindsNone {i : Site} {s : State} (ha : (channelOf s i).activity = .cutting) (hp : s.rail.pulses[i] = none) :
      Effect (.pulseCut i) s (dispose s i)
  | reading (v : Conversion) (s : State) :
      Effect (.temperatureReading v) s { s with reading := limitReading v.output }
  | readingDecides (v : Conversion) (s : State) :
      Effect (.temperatureReading v) s (decideHold { s with reading := limitReading v.output })
  | readingFrees (v : Conversion) {s : State} (h : s.phase = .startupWaiting) :
      Effect (.temperatureReading v) s
        { decideHold { s with reading := limitReading v.output } with phase := .startupReady }
  | exchangeRequest {i : Site} {s : State} (ha : (channelOf s i).activity ≠ .starting) :
      Effect (.exchangeRequest i) s (takeExchange s i)
  | exchangeStarts {i : Site} {s : State} (ha : (channelOf s i).activity = .starting) :
      Effect (.exchangeRequest i) s (takeExchange (lotCheck s i) i)
  | response {i : Site} (bytes : List Byte) {r : LinkRequest} (s : State) :
      Effect (.responseComplete i bytes) s (judgeResponse s i r bytes)
  | timeout (i : Site) (s : State) :
      Effect (.responseTimeout i) s
        (failSending (countOn s i fun c => { c with timeouts := saturatingInc c.timeouts }) i false)
  | drainEnd (i : Site) (s : State) : Effect (.drainEnd i) s (resendAfterDrain s i)
  | mirrorNow {s : State} (h : s.phase = .running) : Effect .mirrorNow s (triggerMirror s)
  | intervalExpiry (s : State) :
      Effect .mirrorIntervalExpiry s (triggerMirror (setMirror s { s.mirror with intervalTimer := none }))
  | countdownZero (n : Nat) (s : State) :
      Effect .mirrorCountdownZero s (triggerMirror (setMirror s { s.mirror with zeroReached := n }))
  | mirrorWriteEnd (early : BitVec 35) {s : State} (h : s.mirror.writing = true) (hp : s.mirror.writePending = false) :
      Effect (.mirrorWriteEnd early) s (endMirrorWrite s early)
  | mirrorWriteAgain (early : BitVec 35) {s : State} (h : s.mirror.writing = true) (hp : s.mirror.writePending = true) :
      Effect (.mirrorWriteEnd early) s
        (beginMirrorWrite (setMirror (endMirrorWrite s early) { (endMirrorWrite s early).mirror with writePending := false }))

/-! ## Every command has one of these effects -/

/-- A request row takes its request from the slot, or changes nothing. -/
theorem effect_of_takesRequest {c : Instr} {code : Word} {carried s t : State} (hcarried : carryOut code (accept s) = carried)
    (hcode : knownCode code = true) (hc : ∀ order, c ≠ .softReset order) (hc' : ∀ early, c ≠ .mirrorWriteEnd early)
    (h : Host.Outcome.next (if takesRequest s code then reexamine carried else s) =
      (.next t : Host.Outcome State Fault Refusal)) : Effect c s t := by
  subst hcarried
  cases h
  split
  · exact .request c (posted_of_takesRequest ‹_›) hcode hc hc'
  · exact .unchanged _ _

/-- A fresh claim is granted, refused, or none (R6, R96, R112). -/
theorem effect_of_freshClaim {i : Site} {s t : State} (h : execFreshClaim i s = .next t) : Effect (.freshClaim i) s t := by
  cases h
  split
  next hc =>
    obtain ⟨ha, hl⟩ := hc
    have hopen : s.lot.state ≠ .noLot := by simpa [lotIsOpen] using hl
    have hrefused (h : ∀ n, freshAnswer s.lot ≠ .granted n) : setLot s (afterFreshClaim s.lot) = s := by
      unfold afterFreshClaim
      split
      · exact absurd ‹_› (h _)
      · rfl
    dsimp only
    split
    next n hn =>
      refine .freshGranted ha hopen hn ⟨_, rfl, ?_⟩
      split
      · exact .inr rfl
      · exact .inl rfl
    next hn =>
      rw [hrefused (by simp [hn])]
      refine .freshRefused ha hopen ?_
      split
      · exact .inl rfl
      · exact .inr ⟨_, rfl⟩
    next hn =>
      rw [hrefused (by simp [hn])]
      refine .freshRefused ha hopen ?_
      split
      · exact .inl rfl
      · exact .inr ⟨_, rfl⟩
  next => exact .unchanged _ _

/-- A resume claim is granted, refused, or none (R10, R97, R112). -/
theorem effect_of_resumeClaim {i : Site} {s t : State} (h : execResumeClaim i s = .next t) :
    Effect (.resumeClaim i) s t := by
  cases h
  split
  next hc =>
    obtain ⟨ha, hl⟩ := hc
    have hopen : s.lot.state ≠ .noLot := by simpa [lotIsOpen] using hl
    unfold afterResumeClaim
    dsimp only
    split
    next hn =>
      rw [hn]
      refine .resumeGranted ha hopen rfl ⟨_, rfl, ?_⟩
      split
      · exact .inr rfl
      · exact .inl rfl
    next hn =>
      rw [hn]
      refine .resumeRefused ha hopen ?_
      split
      · exact .inl rfl
      · exact .inr (.inr ⟨fun c => { c.figures with readbackBinding := _ }, rfl⟩)
    next hn =>
      rw [hn]
      refine .resumeRefused ha hopen ?_
      split
      · exact .inl rfl
      · exact .inr (.inl rfl)
  next => exact .unchanged _ _

/-- An interruption is ignored, or taken with what is outstanding abandoned, awaited or withdrawn (R109, R110, R112). -/
theorem effect_of_interruption {i : Site} {s t : State} (h : execInterruption i s = .next t) :
    Effect (.interruption i) s t := by
  have taken (reason : InterruptReason) : modifyChannel (modifyChannel s i fun c => { c with interruptSent := none }) i
      (fun c => { c with interruption := some reason }) = takeInterruption s i reason := by
    simp [modifyChannel, takeInterruption, setChannel, channelOf]
  cases h
  split
  · exact .unchanged _ _
  next reason _ =>
    dsimp only
    split
    · exact .interruptionIgnored i s
    · rw [taken reason]
      split
      next ha => exact .interruptionDisposes (.inl ha)
      next t ha => exact .interruptionDisposes (.inr (.inl ⟨t, ha⟩))
      next t ha => exact .interruptionAbandons ⟨t, ha⟩
      next ha => exact .interruptionAwaitsClaim (.inl ha)
      next ha => exact .interruptionAwaitsClaim (.inr ha)
      next ha => exact .interruptionDisposes (.inr (.inr (.inl ha)))
      next ha => exact .interruptionWithdraws (by simp [ha])
      next ha => exact .interruptionDisposes (.inr (.inr (.inr ha)))
      next ha => exact .interruptionWithdraws (by simp [ha])
      next ha => exact .interruptionWithdraws (by simp [ha])
      next => exact .interruptionIgnored i s

/-- A report of this kind is taken, or none is made (R9, R11, R12, R13). -/
theorem effect_of_report {c : Instr} {i : Site} {r : Report} {s t : State}
    (hc : c = .hold i ∨ c = .release i ∨ c = .commit i ∨ c = .spoil i)
    (h : Host.Outcome.next (if (channelOf s i).activity = .reporting r ∧ lotIsOpen s.lot then takeReport s i r else s) =
      (.next t : Host.Outcome State Fault Refusal)) : Effect c s t := by
  cases h
  split
  next hx => exact .report hc hx.1 (by simpa [lotIsOpen] using hx.2)
  next => exact .unchanged _ _

/-- A command has one of the effects. -/
theorem effect_of_exec {c : Instr} {s t : State} (h : exec c s = .next t) : Effect c s t := by
  cases c with
  | powerOnReset p b => cases h; exact .powerOnReset p b s
  | startupEnd =>
    cases h
    split
    · exact .startupEnd ‹_›
    · exact .unchanged _ _
  | softReset order =>
    cases h
    split
    · exact .softReset order ‹_›
    · exact .unchanged _ _
  | mirrorNow =>
    cases h
    split
    · exact .mirrorNow ‹_›
    · exact .unchanged _ _
  | interruptEnables e => cases h; exact .enables e s
  | notify value => cases h; exact .notify value s
  | attentionWrite value => cases h; exact .attention value s
  | registerWrite r value => cases h; exact .unchanged _ _
  | hostRamWrite offset lanes value =>
    change execHostRamWrite offset lanes value s = _ at h
    unfold execHostRamWrite at h
    split at h
    · cases h; exact .hostWrite offset lanes value ‹_›
    · cases h
  | openLot => exact effect_of_takesRequest (code := 1) rfl rfl nofun nofun h
  | closeLot => exact effect_of_takesRequest (code := 2) rfl rfl nofun nofun h
  | spoilIndex => exact effect_of_takesRequest (code := 3) rfl rfl nofun nofun h
  | listResume => exact effect_of_takesRequest (code := 4) rfl rfl nofun nofun h
  | validateProfile => exact effect_of_takesRequest (code := 5) rfl rfl nofun nofun h
  | loadSecret => exact effect_of_takesRequest (code := 6) rfl rfl nofun nofun h
  | sealSecret => exact effect_of_takesRequest (code := 7) rfl rfl nofun nofun h
  | abortTouchdown => exact effect_of_takesRequest (code := 8) rfl rfl nofun nofun h
  | clearCounters => exact effect_of_takesRequest (code := 9) rfl rfl nofun nofun h
  | unknown =>
    cases h
    split
    next hx =>
      simp only [Bool.and_eq_true] at hx
      exact .unknown hx.1.1
    next => exact .unchanged _ _
  | contactRise =>
    cases h
    split
    · exact .unchanged _ _
    · dsimp only
      split
      · exact .rise ‹_›
      · exact .riseUntaken ‹_›
  | contactFall =>
    cases h
    split
    · dsimp only
      split
      · exact .fall ‹_›
      · exact .fallUntaken ‹_›
    · exact .unchanged _ _
  | settleExpiry m =>
    cases h
    split
    next hx => exact .settleExpiry m hx.1 hx.2.2
    next => exact .unchanged _ _
  | siteDone i =>
    cases h
    split
    next hx =>
      dsimp only
      split
      next f hf =>
        split
        · exact .frameDone hx.1 hx.2 hf ‹_›
        · exact .siteDone hx.1 hx.2
      next => exact .siteDone hx.1 hx.2
    next => exact .unchanged _ _
  | interruption i => exact effect_of_interruption h
  | freshClaim i => exact effect_of_freshClaim h
  | resumeClaim i => exact effect_of_resumeClaim h
  | hold i => exact effect_of_report (.inl rfl) h
  | release i => exact effect_of_report (.inr (.inl rfl)) h
  | commit i => exact effect_of_report (.inr (.inr (.inl rfl))) h
  | spoil i =>
    change execSpoil i s = _ at h
    unfold execSpoil at h
    split at h
    next cause ha => exact effect_of_report (r := .spoil cause) (.inr (.inr (.inr rfl))) (by simpa [ha] using h)
    next => cases h; exact .unchanged _ _
  | keyRequest i =>
    cases h
    split
    next b ha hb => exact .keyRequest ha hb
    next => exact .unchanged _ _
  | keyDelivery =>
    cases h
    split
    next => exact .unchanged _ _
    next job hj =>
      dsimp only
      split
      next hx => exact .keyDelivered hx.2
      next => exact .keyDiscarded s
  | keyWithdrawal i =>
    cases h
    split
    · exact .keyWithdrawal ‹_›
    · exact .unchanged _ _
  | slotRequest i =>
    cases h
    split
    next ha =>
      dsimp only
      split
      next hx => exact .slotGranted ha hx.1
      next => exact .slotAwaited ha
    next => exact .unchanged _ _
  | slotWithdrawal i =>
    cases h
    split
    · exact .slotWithdrawal ‹_›
    · exact .unchanged _ _
  | pulseEnd i =>
    cases h
    split
    next => exact .unchanged _ _
    next hp => exact .pulseEnd (by rw [hp]; simp)
  | pulseCut i =>
    cases h
    split
    next ha =>
      dsimp only
      split
      next hp => exact .pulseCut ha (Option.isSome_iff_ne_none.mp hp)
      next hp => exact .cutFindsNone ha (by simpa using hp)
    next => exact .unchanged _ _
  | temperatureReading v =>
    cases h
    dsimp only
    split
    next => exact .reading v s
    next hp =>
      split
      · exact .reading v s
      · exact .readingFrees v hp
    next => exact .readingDecides v s
    next => exact .readingDecides v s
  | exchangeRequest i =>
    cases h
    split
    · exact .exchangeStarts ‹_›
    · exact .exchangeRequest ‹_›
  | responseComplete i bytes =>
    cases h
    split
    · exact .response bytes s
    · exact .unchanged _ _
  | responseTimeout i =>
    cases h
    split
    · exact .timeout i s
    · exact .unchanged _ _
  | drainEnd i =>
    cases h
    split
    · exact .drainEnd i s
    · exact .unchanged _ _
  | mirrorIntervalExpiry =>
    cases h
    split
    · exact .unchanged _ _
    · exact .intervalExpiry s
  | mirrorCountdownZero =>
    cases h
    split
    · exact .unchanged _ _
    next n hn => exact .countdownZero n s
  | mirrorWriteEnd early =>
    cases h
    split
    next hw =>
      dsimp only
      split
      next hp => exact .mirrorWriteAgain early hw hp
      next hp => exact .mirrorWriteEnd early hw (Bool.eq_false_iff.mpr hp)
    next => exact .unchanged _ _
  | softResetEnd =>
    cases h
    split
    · exact .softResetEnd ‹_›
    · exact .unchanged _ _

/-- A step keeps what every command keeps and the queue does not matter to. -/
theorem step_keeps {P : State → Prop} (hqueue : ∀ s l, P s → P { s with pending := l })
    (hexec : ∀ c s t, P s → Effect c s t → P t) {s t : State} (hs : P s) (h : step s = .next t) : P t := by
  unfold step at h
  split at h
  · cases h; exact hs
  next c rest _ => exact hexec c _ t (hqueue s rest hs) (effect_of_exec h)

end Sys2Proof.Machine
end

section
/-!
The obligations about the queue, the outcomes, and the canonical form of the exchange RAM.
-/

namespace Sys2Proof.Machine

/-! ## The queue -/

/-- Settles O1: `step` reads the command at the front of the queue. -/
theorem stepRunsTheFrontCommand : Obligations.StepRunsTheFrontCommand := by
  intro s c rest h
  rw [step, h]

/-- A state that is as another but for the exchange RAM and the phase keeps its queue. -/
theorem softlyReset_pending (order : List Site) (s : State) : (softlyReset order s).pending = s.pending := by
  simp [softlyReset]

/-- Every effect leaves the queue. -/
theorem effect_pending {c : Instr} {s t : State} (h : Effect c s t) : t.pending = s.pending := by
  cases h with
  | softReset order h => exact softlyReset_pending order s
  | freshGranted _ _ _ ht => obtain ⟨u, rfl, rfl | rfl⟩ := ht <;> simp
  | resumeGranted _ _ _ ht => obtain ⟨u, rfl, rfl | rfl⟩ := ht <;> simp
  | freshRefused _ _ ht => obtain rfl | ⟨o, rfl⟩ := ht <;> simp
  | resumeRefused _ _ ht => obtain rfl | rfl | ⟨g, rfl⟩ := ht <;> simp
  | pulseEnd => split <;> simp
  | _ => simp [startedUp, softResetEnded, takeInterruption, clearAttention]

/-- Settles O2. -/
theorem commandsLeaveTheQueue : Obligations.CommandsLeaveTheQueue := fun _ _ _ h => effect_pending (effect_of_exec h)

/-! ## The outcomes -/

/-- Settles O3: every arm of `exec` but that of HOST_RAM_WRITE answers with a next state. -/
theorem onlyHostWritesBeyondTheWindowStop : Obligations.OnlyHostWritesBeyondTheWindowStop := by
  intro c s
  cases c with
  | hostRamWrite offset lanes value =>
    show (∃ t, execHostRamWrite offset lanes value s = .next t) ∨ _
    unfold execHostRamWrite
    by_cases h : offset.toNat < Config.ramBytes
    · exact .inl ⟨_, if_pos h⟩
    · exact .inr ⟨offset, lanes, value, rfl, Nat.le_of_not_lt h, if_neg h⟩
  | _ => exact .inl ⟨_, rfl⟩

/-- A request row finds nothing to take where no request of its code is posted. -/
theorem takesRequest_of_not_posted {s : State} {code : Word} (h : ¬ posted s code) : takesRequest s code = false :=
  Bool.eq_false_iff.mpr fun hx => h (posted_of_takesRequest hx)

/-- UNKNOWN finds nothing to take where no request is posted at all. -/
theorem execUnknown_of_not_posted {s : State} (h : ∀ code, ¬ posted s code) : execUnknown s = .next s := by
  have : takesRequest s (readRam s atRequestCode) = false := takesRequest_of_not_posted (h _)
  simp only [takesRequest, decide_true, Bool.and_true] at this
  simp [execUnknown, this]

/-- Settles O4: the outer test of each command. -/
theorem commandsWithoutTheirEventDoNothing : Obligations.CommandsWithoutTheirEventDoNothing := by
  refine ⟨?idle, ?exchangeRequest, ?response, ?drainEnd, ?interruption, ?siteDone, ?resting, ?keyDelivery, ?pulseEnd,
    ?settleExpiry, ?rise, ?fall, ?interval, ?countdown, ?writeEnd, ?startupEnd, ?softResetEnd, ?notRunning, ?requests⟩
  case idle => intro s h; rw [step, h]
  case exchangeRequest =>
    intro i s hn hs
    show execExchangeRequest i s = _
    rw [execExchangeRequest, if_neg hs, takeExchange_of_not_naming hn]
  case response =>
    intro i bytes s h
    constructor
    · show execResponseComplete i bytes s = _
      unfold execResponseComplete
      split
      next hl _ => exact absurd hl h
      next => rfl
    · show execResponseTimeout i s = _
      rw [execResponseTimeout, if_neg h]
  case drainEnd => intro i s h; show execDrainEnd i s = _; rw [execDrainEnd, if_neg h]
  case interruption => intro i s h; show execInterruption i s = _; rw [execInterruption, h]
  case siteDone =>
    intro i s h
    show execSiteDone i s = _
    rw [execSiteDone, if_neg fun hx => h hx.2]
  case resting =>
    intro i s h c hc
    simp only [List.mem_cons, List.not_mem_nil, or_false] at hc
    rcases hc with rfl | rfl | rfl | rfl | rfl | rfl | rfl | rfl | rfl | rfl | rfl
    all_goals
      simp [exec, execFreshClaim, execResumeClaim, execHold, execRelease, execCommit, execSpoil, execKeyRequest,
        execKeyWithdrawal, execSlotRequest, execSlotWithdrawal, execPulseCut, h]
  case keyDelivery => intro s h; show execKeyDelivery s = _; rw [execKeyDelivery, h]
  case pulseEnd => intro i s h; show execPulseEnd i s = _; rw [execPulseEnd, h]
  case settleExpiry =>
    intro m s h
    show execSettleExpiry m s = _
    simp [execSettleExpiry, h]
  case rise => intro s h; show execContactRise s = _; simp [execContactRise, h]
  case fall => intro s h; show execContactFall s = _; simp [execContactFall, h]
  case interval => intro s h; show execMirrorIntervalExpiry s = _; rw [execMirrorIntervalExpiry, h]
  case countdown => intro s h; show execMirrorCountdownZero s = _; rw [execMirrorCountdownZero, h]
  case writeEnd => intro early s h; show execMirrorWriteEnd early s = _; simp [execMirrorWriteEnd, h]
  case startupEnd => intro s h; show execStartupEnd s = _; rw [execStartupEnd, if_neg h]
  case softResetEnd => intro s h; show execSoftResetEnd s = _; rw [execSoftResetEnd, if_neg h]
  case notRunning =>
    intro order s h
    constructor
    · show execSoftReset order s = _
      rw [execSoftReset, if_neg h]
    · show execMirrorNow s = _
      rw [execMirrorNow, if_neg h]
  case requests =>
    intro s h c hc
    have none (code : Word) : takesRequest s code = false := takesRequest_of_not_posted (h code)
    simp only [List.mem_cons, List.not_mem_nil, or_false] at hc
    rcases hc with rfl | rfl | rfl | rfl | rfl | rfl | rfl | rfl | rfl | rfl
    case inr.inr.inr.inr.inr.inr.inr.inr.inr => exact execUnknown_of_not_posted h
    all_goals
      simp [exec, execOpenLot, execCloseLot, execSpoilIndex, execListResume, execValidateProfile, execLoadSecret,
        execSealSecret, execAbortTouchdown, execClearCounters, none]

/-! ## The canonical form of the exchange RAM -/

/-- What the end of a start-up changes before the slot is examined. -/
theorem startedUp_eq (s : State) :
    startedUp s =
      { s with
        ram := (writeIdentity s).ram, phase := .running
        touchdown := { s.touchdown with contactLevel := s.contactLine } } := by
  simp [startedUp, followContact, setTouchdown]

/-- What the end of a soft reset changes before the slot is examined. -/
theorem softResetEnded_eq (s : State) :
    softResetEnded s =
      { s with
        phase := .running, attention := 32, rail := { s.rail with hold := false }
        touchdown := { s.touchdown with contactLevel := s.contactLine } } := by
  have hbit : (0 : BitVec 6) ||| BitVec.twoPow 6 5 = 32 := by decide
  rw [← hbit]
  rfl

@[simp] theorem softlyReset_ram (order : List Site) (s : State) :
    (softlyReset order s).ram = (writeIdentity (resetStepThree (resetClosure (resetStepOne s) order))).ram := by
  simp [softlyReset]

theorem startedUp_ok {s : State} (h : RamOk s) : RamOk (startedUp s) := ramOk_of_eq (writeIdentity_ok h) (by rw [startedUp_eq])

theorem softlyReset_ok (order : List Site) {s : State} (h : RamOk s) : RamOk (softlyReset order s) :=
  ramOk_of_eq (writeIdentity_ok (resetStepThree_ok (resetClosure_ok (resetStepOne_ok h) order))) (softlyReset_ram order s)

/-- Every effect keeps the canonical form of the exchange RAM. -/
theorem effect_ramOk {c : Instr} {s t : State} (hs : RamOk s) (h : Effect c s t) : RamOk t := by
  cases h with
  | powerOnReset => exact ramOk_of_eq reset_ram_wf rfl
  | startupEnd => exact examineIfPending_ok (startedUp_ok hs)
  | softReset order h => exact softlyReset_ok order hs
  | softResetEnd => exact examineIfPending_ok (ramOk_of_eq hs (by rw [softResetEnded_eq]))
  | rise => exact (takeRise_ok _).mpr hs
  | fall => exact takeFall_ok (s := { s with contactLine := false }) hs
  | settleExpiry m => exact considerFrame_ok (notifyUnit_ok (s := latch s m.contactSense) hs) m.late
  | frameDone => exact finishFrame_ok ((setActivity_ok _ _ _).mpr hs) _
  | freshGranted _ _ _ ht =>
    obtain ⟨u, rfl, rfl | rfl⟩ := ht
    · simpa using hs
    · exact dispose_ok (by simpa using hs) _
  | resumeGranted _ _ _ ht =>
    obtain ⟨u, rfl, rfl | rfl⟩ := ht
    · simpa using hs
    · exact dispose_ok (by simpa using hs) _
  | freshRefused _ _ ht => obtain rfl | ⟨o, rfl⟩ := ht <;> simp [hs]
  | resumeRefused _ _ ht => obtain rfl | rfl | ⟨g, rfl⟩ := ht <;> simp [hs]
  | interruptionDisposes => exact dispose_ok ((modifyChannel_ok _ _ _).mpr hs) _
  | interruptionAbandons => exact dispose_ok ((abandon_ok _ _).mpr ((modifyChannel_ok _ _ _).mpr hs)) _
  | interruptionAwaitsClaim => exact (modifyChannel_ok _ _ _).mpr hs
  | interruptionWithdraws => exact (setActivity_ok _ _ _).mpr ((modifyChannel_ok _ _ _).mpr hs)
  | keyDelivered => simpa using hs
  | keyWithdrawal => exact dispose_ok ((setDerivation_ok _ _).mpr hs) _
  | slotWithdrawal => exact dispose_ok ((setRail_ok _ _).mpr hs) _
  | pulseEnd => split <;> simpa using hs
  | pulseCut => exact dispose_ok (by simpa using hs) _
  | readingDecides => exact (decideHold_ok _).mpr hs
  | readingFrees v => exact (decideHold_ok { s with reading := limitReading v.output }).mpr hs
  | exchangeStarts => exact (takeExchange_ok _ _).mpr (lotCheck_ok hs _)
  | intervalExpiry => exact triggerMirror_ok ((setMirror_ok _ _).mpr hs)
  | countdownZero => exact triggerMirror_ok ((setMirror_ok _ _).mpr hs)
  | mirrorWriteEnd early => exact endMirrorWrite_ok hs early
  | mirrorWriteAgain early => exact beginMirrorWrite_ok ((setMirror_ok _ _).mpr (endMirrorWrite_ok hs early))
  | request => exact reexamine_ok (carryOut_ok ((accept_ok _).mpr hs) _)
  | notify => exact notifyUnit_ok hs
  | unknown => exact answerAtOnce_ok hs _ _
  | report => exact takeReport_ok hs _ _
  | timeout => exact failSending_ok ((countOn_ok _ _ _).mpr hs) _ _
  | response => exact judgeResponse_ok hs _ _ _
  | mirrorNow => exact triggerMirror_ok hs
  | hostWrite => exact writeRam_ok hs _ _
  | cutFindsNone => exact dispose_ok hs _
  | unchanged => exact hs
  | enables => exact hs
  | attention => exact hs
  | riseUntaken => exact hs
  | fallUntaken => exact hs
  | reading => exact hs
  | _ => simpa using hs

/-- Settles O5. -/
theorem ramCanonicalFormIsKept : Obligations.RamCanonicalFormIsKept :=
  fun _ _ hs h => step_keeps (P := RamOk) (fun _ _ h => h) (fun _ _ _ h e => effect_ramOk h e) hs h

end Sys2Proof.Machine
end

section
/-!
What the requests can make of the blocks, said once: `RequestMove s u` has one case for each request that changes a block. A law
that does not read the exchange RAM, the request unit or ATTENTION is kept by every examination of the slot when it is kept by
these moves.
-/

namespace Sys2Proof.Machine

/-! ## The blocks that the laws read -/

/-- The lot, derivation unit, touchdown controller, channels and rail of two states are the same. -/
structure SameBlocks (s t : State) : Prop where
  lot : t.lot = s.lot
  derivation : t.derivation = s.derivation
  touchdown : t.touchdown = s.touchdown
  channels : t.channels = s.channels
  rail : t.rail = s.rail

theorem SameBlocks.refl (s : State) : SameBlocks s s := ⟨rfl, rfl, rfl, rfl, rfl⟩

theorem SameBlocks.trans {s t u : State} (h : SameBlocks s t) (g : SameBlocks t u) : SameBlocks s u :=
  ⟨g.lot.trans h.lot, g.derivation.trans h.derivation, g.touchdown.trans h.touchdown, g.channels.trans h.channels,
    g.rail.trans h.rail⟩

theorem SameBlocks.channelOf {s t : State} (h : SameBlocks s t) (i : Site) : channelOf t i = channelOf s i := by
  simp only [Machine.channelOf, h.channels]

theorem sameBlocks_setRequests (s : State) (r : RequestUnit) : SameBlocks s (setRequests s r) := ⟨rfl, rfl, rfl, rfl, rfl⟩

theorem sameBlocks_accept (s : State) : SameBlocks s (accept s) := sameBlocks_setRequests s _

theorem sameBlocks_answer (s : State) (code : AnswerCode) (detail : Word) (results : List Word) :
    SameBlocks s (answer s code detail results) := by
  constructor <;> simp

theorem sameBlocks_answerAtOnce (s : State) (code : AnswerCode) (detail : Word) :
    SameBlocks s (answerAtOnce s code detail) := by
  constructor <;> simp

/-- Publishing the secret state touches the exchange RAM alone. -/
theorem sameBlocks_publish (s : State) (d : DerivationUnit) :
    SameBlocks (setDerivation s d) (publishSecretState (setDerivation s d)) := ⟨rfl, rfl, rfl, rfl, rfl⟩

/-! ## A loop that modifies the channel of each site once -/

theorem channelOf_forSites_modifyChannel (g : SiteChannel → SiteChannel) {l : List Site} (hl : l.Nodup) (s : State) (j : Site) :
    channelOf (forSites l (fun s i => modifyChannel s i g) s) j = if j ∈ l then g (channelOf s j) else channelOf s j := by
  induction l generalizing s with
  | nil => rfl
  | cons i l ih =>
    obtain ⟨hi, hl⟩ := List.nodup_cons.mp hl
    show channelOf (forSites l _ (modifyChannel s i g)) j = _
    rw [ih hl]
    by_cases hj : j = i
    · subst hj
      simp [hi]
    · simp [hj, channelOf_modifyChannel_ne _ _ _ _ hj]

/-- The loop over all sites maps the channels. -/
theorem forSites_modifyChannel (g : SiteChannel → SiteChannel) (s : State) :
    forSites Config.allSites (fun s i => modifyChannel s i g) s = { s with channels := s.channels.map g } := by
  have keeps {α : Type} (p : State → α) (h : ∀ s i, p (modifyChannel s i g) = p s) :
      p (forSites Config.allSites (fun s i => modifyChannel s i g) s) = p s := forSites_keeps p h _ _
  apply State.eq_of_fields
  case channels =>
    ext j hj : 1
    have := channelOf_forSites_modifyChannel g allSites_nodup s ⟨j, hj⟩
    rw [if_pos (mem_allSites _)] at this
    simpa [channelOf] using this
  case ram => exact keeps (·.ram) fun _ _ => rfl
  case phase => exact keeps (·.phase) fun _ _ => rfl
  case straps => exact keeps (·.straps) fun _ _ => rfl
  case enables => exact keeps (·.enables) fun _ _ => rfl
  case attention => exact keeps (·.attention) fun _ _ => rfl
  case requests => exact keeps (·.requests) fun _ _ => rfl
  case lot => exact keeps (·.lot) fun _ _ => rfl
  case derivation => exact keeps (·.derivation) fun _ _ => rfl
  case touchdown => exact keeps (·.touchdown) fun _ _ => rfl
  case ports => exact keeps (·.ports) fun _ _ => rfl
  case rail => exact keeps (·.rail) fun _ _ => rfl
  case reading => exact keeps (·.reading) fun _ _ => rfl
  case mirror => exact keeps (·.mirror) fun _ _ => rfl
  case contactLine => exact keeps (·.contactLine) fun _ _ => rfl
  case pending => exact keeps (·.pending) fun _ _ => rfl

/-- Replacing a channel by itself changes nothing. -/
theorem modifyChannel_self {s : State} {i : Site} {g : SiteChannel → SiteChannel} (h : g (channelOf s i) = channelOf s i) :
    modifyChannel s i g = s := by
  rw [modifyChannel, h]
  simp [setChannel, channelOf]

/-- The interruption that a working channel is sent (R79, R82). -/
def sendInterruption (reason : InterruptReason) (c : SiteChannel) : SiteChannel :=
  if c.state = .done then c else { c with interruptSent := some reason }

theorem interruptWorking_eq (s : State) (reason : InterruptReason) :
    interruptWorking s reason = { s with channels := s.channels.map (sendInterruption reason) } := by
  rw [interruptWorking, ← forSites_modifyChannel]
  congr 1
  funext s i
  split
  next h => exact (modifyChannel_self (by rw [sendInterruption, if_pos h])).symm
  next h => simp [modifyChannel, sendInterruption, h]

/-- A channel whose entry into DONE is taken (R80). -/
def takeEntry (c : SiteChannel) : SiteChannel := if c.activity = .finished then { c with activity := .resting } else c

theorem leaveActive_eq (s : State) :
    leaveActive s =
      { s with
        channels := s.channels.map takeEntry
        touchdown := { s.touchdown with
          holdoff := false, activeFrame := none, state := if s.touchdown.contactLevel then .waitLift else .idle } } := by
  have hloop : (fun s i => if (channelOf s i).activity = .finished then setActivity s i .resting else s) =
      fun s i => modifyChannel s i takeEntry := by
    funext s i
    split
    next h => simp [setActivity, modifyChannel, takeEntry, h]
    next h => exact (modifyChannel_self (by rw [takeEntry, if_neg h])).symm
  rw [leaveActive, hloop, forSites_modifyChannel]
  rfl

/-! ## The moves of the requests -/

/-- The lot after the closing steps (R20). -/
def closedLot (l : LotController) : LotController := { spoilList l with state := .noLot }

theorem sameBlocks_closingSteps (s : State) : SameBlocks (setLot s (closedLot s.lot)) (closingSteps s) := by
  constructor <;> simp [closingSteps, closedLot]

/-- What a request that is carried out makes of the blocks. -/
inductive RequestMove : State → State → Prop
  | same (s : State) : RequestMove s s
  | opens {s : State} (total : Nat) (htotal : total ≤ 16) (hl : s.lot.state = .noLot) (hd : s.derivation.state = .sealed)
      (hr : (openedLot s).first ≤ (openedLot s).last) :
      RequestMove s (setRail (setLot s (openedLot s)) { s.rail with slotTotal := total })
  | closes {s : State} (ht : s.touchdown.state = .idle ∨ s.touchdown.state = .waitLift) :
      RequestMove s (setLot s (closedLot s.lot))
  | drains {s : State} (hl : s.lot.state = .opened) : RequestMove s (setLot s { s.lot with state := .draining })
  | spoils {s : State} {n : Nat} {e : ResumeEntry} (hl : s.lot.state ≠ .noLot) (he : entryOf s.lot n = some e) :
      RequestMove s (setLot s (spoilListed s.lot n))
  | loads {s : State} (secret : Secret) (check : Word) (hd : s.derivation.state ≠ .sealed) :
      RequestMove s (setDerivation s { s.derivation with secret := secret, state := .loaded, checkValue := check })
  | seals {s : State} (hd : s.derivation.state = .loaded) :
      RequestMove s (setDerivation s { s.derivation with state := .sealed })
  | abortsAgain {s : State} (ht : s.touchdown.state = .active) :
      RequestMove s (setTouchdown s { s.touchdown with abortPending := true })
  | aborts {s : State} (ht : s.touchdown.state = .active) :
      RequestMove s (interruptWorking
        (setTouchdown s { s.touchdown with abortPending := true, endReason := some .aborted }) .aborted)
  | clears (s : State) :
      RequestMove s (setTouchdown s { s.touchdown with total := 0, bounced := 0, planless := 0, overlapped := 0 })

/-- A request that is carried out in `s` leaves the blocks as a move of `s` does. -/
def MovesBlocks (s t : State) : Prop := ∃ u, RequestMove s u ∧ SameBlocks u t

theorem movesBlocks_of_same {s t : State} (h : SameBlocks s t) : MovesBlocks s t := ⟨s, .same s, h⟩

theorem movesBlocks_answer (s : State) (code : AnswerCode) (detail : Word) (results : List Word) :
    MovesBlocks s (answer s code detail results) := movesBlocks_of_same (sameBlocks_answer s _ _ _)

/-- An OPEN_LOT that is not refused finds no lot, a sealed secret and a range (R3). -/
theorem openLotRefusal_none {s : State} (h : openLotRefusal s = none) :
    s.lot.state = .noLot ∧ s.derivation.state = .sealed ∧ (openedLot s).first ≤ (openedLot s).last := by
  unfold openLotRefusal at h
  dsimp only at h
  split at h
  · cases h
  split at h
  · cases h
  split at h
  · cases h
  split at h
  · cases h
  next hlot hseal _ hrange => exact ⟨not_not.mp hlot, not_not.mp hseal, Nat.le_of_not_lt hrange⟩

theorem openLot_moves (s : State) : MovesBlocks s (openLot s) := by
  unfold openLot
  split
  · exact movesBlocks_answer s _ _ _
  next hnone =>
    obtain ⟨hl, hd, hr⟩ := openLotRefusal_none hnone
    exact ⟨_, .opens _ (Nat.min_le_left _ _) hl hd hr, sameBlocks_answer _ _ _ _⟩

theorem closeLot_moves (s : State) : MovesBlocks s (closeLot s) := by
  have closes (ht : s.touchdown.state = .idle ∨ s.touchdown.state = .waitLift) : MovesBlocks s (closingSteps s) :=
    ⟨_, .closes ht, sameBlocks_closingSteps s⟩
  unfold closeLot
  split
  next => exact movesBlocks_answer s _ _ _
  next => exact movesBlocks_of_same (.refl s)
  next hl =>
    split
    next ht => exact closes (.inl ht)
    next ht => exact closes (.inr ht)
    next => exact ⟨_, .drains hl, .refl _⟩
    next => exact ⟨_, .drains hl, .refl _⟩

theorem spoilIndex_moves (s : State) : MovesBlocks s (spoilIndex s) := by
  unfold spoilIndex
  dsimp only
  split
  · exact movesBlocks_answer s _ _ _
  next hl =>
    split
    · exact movesBlocks_answer s _ _ _
    · split
      · exact movesBlocks_answer s _ _ _
      next e he =>
        split
        · exact movesBlocks_answer s _ _ _
        · exact ⟨_, .spoils hl he, sameBlocks_answer _ _ _ _⟩

theorem loadSecret_moves (s : State) : MovesBlocks s (loadSecret s) := by
  have refused (code : AnswerCode) (d : Word) : MovesBlocks s (answer (zeroRam s atStaging 16) code d []) :=
    movesBlocks_of_same (.trans (t := zeroRam s atStaging 16) ⟨rfl, rfl, rfl, rfl, rfl⟩ (sameBlocks_answer _ _ _ _))
  unfold loadSecret
  dsimp only
  split
  · exact refused _ _
  · split
    · exact refused _ _
    next hd =>
      split
      · exact refused _ _
      · refine ⟨_, .loads (stagedSecret s) (checkValueOf (stagedSecret s)) hd, ?_⟩
        refine .trans ?_ (sameBlocks_answer _ _ _ _)
        exact ⟨rfl, rfl, rfl, rfl, rfl⟩

theorem sealSecret_moves (s : State) : MovesBlocks s (sealSecret s) := by
  unfold sealSecret
  split
  next hd =>
    exact ⟨_, .seals hd, (sameBlocks_publish s _).trans (sameBlocks_answer _ _ _ _)⟩
  · exact movesBlocks_answer s _ _ _

theorem abortTouchdown_moves (s : State) : MovesBlocks s (abortTouchdown s) := by
  unfold abortTouchdown
  split
  next ht =>
    split
    · exact ⟨_, .abortsAgain ht, .refl _⟩
    · exact ⟨_, .aborts ht, .refl _⟩
  · exact movesBlocks_answer s _ _ _

theorem clearCounters_moves (s : State) : MovesBlocks s (clearCounters s) := by
  refine ⟨_, .clears s, .trans (t := zeroCounters s) ?_ (sameBlocks_answer _ _ _ _)⟩
  constructor <;> simp [zeroCounters_touchdown]

/-- A request that is carried out moves the blocks by one of the moves. -/
theorem carryOut_moves (code : Word) (s : State) : MovesBlocks s (carryOut code s) := by
  unfold carryOut
  split
  · exact openLot_moves s
  · exact closeLot_moves s
  · exact spoilIndex_moves s
  · exact movesBlocks_of_same (by constructor <;> simp)
  · exact movesBlocks_of_same (by constructor <;> simp)
  · exact loadSecret_moves s
  · exact sealSecret_moves s
  · exact abortTouchdown_moves s
  · exact clearCounters_moves s
  · exact movesBlocks_of_same (.refl s)

/-! ## Laws that the examinations keep -/

/-- A law that reads the blocks alone and is kept by every move of a request. -/
structure KeptByRequests (P : State → Prop) : Prop where
  blind : ∀ {s t}, SameBlocks s t → P s → P t
  move : ∀ {s t}, RequestMove s t → P s → P t

namespace KeptByRequests

variable {P : State → Prop} (K : KeptByRequests P)
include K

theorem carryOut {s : State} (h : P s) (code : Word) : P (carryOut code (accept s)) := by
  obtain ⟨u, hmove, hsame⟩ := carryOut_moves code (accept s)
  exact K.blind hsame (K.move hmove (K.blind (sameBlocks_accept s) h))

theorem examineOnce {s : State} (h : P s) : P (examineOnce s) := by
  unfold Machine.examineOnce
  split
  · exact h
  · split
    · dsimp only
      split
      · exact K.carryOut h _
      · exact K.blind (sameBlocks_answerAtOnce s _ _) h
    · exact K.blind (sameBlocks_answerAtOnce s _ _) h

theorem reexamine {s : State} (h : P s) : P (reexamine s) := by
  unfold Machine.reexamine
  split
  · exact K.examineOnce (K.blind (sameBlocks_setRequests s _) h)
  · exact h

theorem examine {s : State} (h : P s) : P (examine s) := by
  unfold Machine.examine
  split
  · exact K.reexamine (K.examineOnce h)
  · exact K.examineOnce h

theorem notifyUnit {s : State} (h : P s) : P (notifyUnit s) := by
  unfold Machine.notifyUnit
  split
  · exact K.examine h
  · exact K.blind (sameBlocks_setRequests s _) h

theorem examineIfPending {s : State} (h : P s) : P (examineIfPending s) := by
  unfold Machine.examineIfPending
  split
  · exact K.examine (K.blind (sameBlocks_setRequests s _) h)
  · exact h

theorem closingSteps {s : State} (h : P s) (ht : s.touchdown.state = .idle ∨ s.touchdown.state = .waitLift) :
    P (closingSteps s) :=
  K.blind (sameBlocks_closingSteps s) (K.move (.closes ht) h)

theorem closeIfDraining {s : State} (h : P s) (ht : s.touchdown.state = .idle ∨ s.touchdown.state = .waitLift) :
    P (closeIfDraining s) := by
  unfold Machine.closeIfDraining
  split
  · exact K.reexamine (K.closingSteps h ht)
  · exact h

/-- The frame is finished once ACTIVE is left (R80, R84, R19). -/
theorem finishFrame {s : State} {f : Fin 2} (h : P (leaveActive s))
    (habort : ∀ {s}, P s → P (setTouchdown s { s.touchdown with abortPending := false })) : P (finishFrame s f) := by
  have hleft : P (leaveActive (raise (writeFinish s f) .frameDone)) := by
    refine K.blind ?_ h
    constructor <;> simp [leaveActive_eq]
  have hstate : (leaveActive (raise (writeFinish s f) .frameDone)).touchdown.state = .idle ∨
      (leaveActive (raise (writeFinish s f) .frameDone)).touchdown.state = .waitLift := by
    rw [leaveActive_eq]
    dsimp only
    split
    · exact .inr rfl
    · exact .inl rfl
  have hanswered : P (answerAbort (leaveActive (raise (writeFinish s f) .frameDone)) f) := by
    unfold answerAbort
    split
    · exact habort (K.blind (sameBlocks_answer _ _ _ _) hleft)
    · exact hleft
  have hstate' : (answerAbort (leaveActive (raise (writeFinish s f) .frameDone)) f).touchdown.state =
      (leaveActive (raise (writeFinish s f) .frameDone)).touchdown.state := by
    unfold answerAbort
    split <;> simp
  unfold Machine.finishFrame
  dsimp only
  split
  · exact K.reexamine (K.closingSteps hanswered (by rw [hstate']; exact hstate))
  · split
    · exact K.reexamine hanswered
    · exact hanswered

end KeptByRequests

end Sys2Proof.Machine
end

section
/-!
The laws of single blocks that every step keeps: the sealed secret (R29), and HOLDOFF with the active frame (R71, R163).
-/

namespace Sys2Proof.Machine

/-! ## The sealed secret (R29) -/

theorem sameSecret_refl (s : State) : sameSecret s s := ⟨rfl, rfl, rfl⟩

/-- Only the derivation unit matters to the secret. -/
theorem sameSecret_of_derivation {s t u : State} (h : sameSecret s t) (e : u.derivation = t.derivation) :
    sameSecret s u := by
  rw [sameSecret, e]
  exact h

theorem beginNextKey_secret (l : LotController) (d : DerivationUnit) :
    (beginNextKey l d).secret = d.secret ∧ (beginNextKey l d).state = d.state ∧
      (beginNextKey l d).checkValue = d.checkValue := by
  unfold beginNextKey
  split <;> exact ⟨rfl, rfl, rfl⟩

theorem queueKey_secret (s : State) (i : Site) (b : BoundIndex) :
    (queueKey s i b).secret = s.derivation.secret ∧ (queueKey s i b).state = s.derivation.state ∧
      (queueKey s i b).checkValue = s.derivation.checkValue := by
  unfold queueKey
  dsimp only
  split
  · exact beginNextKey_secret _ _
  · exact ⟨rfl, rfl, rfl⟩

/-- No request changes a sealed secret: LOAD_SECRET is refused, and SEAL_SECRET finds it sealed. -/
theorem sameSecret_keptByRequests {s₀ : State} (hsealed : s₀.derivation.state = .sealed) :
    KeptByRequests (sameSecret s₀) where
  blind h hs := sameSecret_of_derivation hs h.derivation
  move {s t} h hs := by
    have hstate : s.derivation.state = .sealed := hs.2.1.trans hsealed
    cases h with
    | loads _ _ hd => exact absurd hstate hd
    | seals hd => rw [hstate] at hd; cases hd
    | aborts => exact sameSecret_of_derivation hs (by simp)
    | _ => exact sameSecret_of_derivation hs rfl

/-- The secret, its state and the check value stand over an effect on a sealed secret, but for a power-on reset. -/
theorem effect_sameSecret {c : Instr} {s t : State} (hsealed : s.derivation.state = .sealed)
    (hc : ∀ p b, c ≠ .powerOnReset p b) (h : Effect c s t) : sameSecret s t := by
  have K := sameSecret_keptByRequests hsealed
  have hs := sameSecret_refl s
  have keep {t : State} (e : t.derivation = s.derivation) : sameSecret s t := sameSecret_of_derivation hs e
  cases h with
  | powerOnReset p b => exact absurd rfl (hc p b)
  | startupEnd => exact K.examineIfPending (keep (by rw [startedUp_eq]))
  | softReset order =>
    have : (softlyReset order s).derivation = { s.derivation with waiting := [], inProgress := none } := by
      simp [softlyReset, resetStepOne]
    exact ⟨by rw [this], by rw [this], by rw [this]⟩
  | softResetEnd => exact K.examineIfPending (keep (by rw [softResetEnded_eq]))
  | notify => exact K.notifyUnit hs
  | request => exact K.reexamine (K.carryOut hs _)
  | fall =>
    have hlevel (x : State) (e : x.derivation = s.derivation) : sameSecret s (bounce x) :=
      K.closeIfDraining (keep e) (.inl rfl)
    unfold takeFall
    dsimp only
    split
    · exact keep rfl
    · exact hlevel _ rfl
    · exact keep (by simp)
    · exact keep rfl
  | settleExpiry m =>
    have hnotified := K.notifyUnit (s := latch s m.contactSense) (keep (by simp))
    unfold considerFrame
    dsimp only
    split
    · refine forSites_inv (sameSecret s) (fun x i hx => sameSecret_of_derivation hx (by simp)) _ _ ?_
      exact sameSecret_of_derivation hnotified (by simp)
    · exact K.closeIfDraining (sameSecret_of_derivation hnotified (by simp)) (.inr rfl)
  | frameDone => exact K.finishFrame (keep (by simp)) fun hx => sameSecret_of_derivation hx rfl
  | freshGranted _ _ _ ht => obtain ⟨u, rfl, rfl | rfl⟩ := ht <;> exact keep (by simp)
  | resumeGranted _ _ _ ht => obtain ⟨u, rfl, rfl | rfl⟩ := ht <;> exact keep (by simp)
  | freshRefused _ _ ht => obtain rfl | ⟨o, rfl⟩ := ht <;> exact keep (by simp)
  | resumeRefused _ _ ht => obtain rfl | rfl | ⟨g, rfl⟩ := ht <;> exact keep (by simp)
  | @keyRequest i b => exact queueKey_secret s i b
  | keyDelivered => simpa [sameSecret] using beginNextKey_secret s.lot s.derivation
  | keyDiscarded => exact beginNextKey_secret s.lot s.derivation
  | keyWithdrawal => exact ⟨by simp [withdrawKey], by simp [withdrawKey], by simp [withdrawKey]⟩
  | pulseEnd => split <;> exact keep (by simp)
  | _ => exact keep (by simp [clearAttention, takeInterruption])

/-- Settles O11. -/
theorem sealedSecretStays : Obligations.SealedSecretStays :=
  fun _ _ _ hsealed hc h => effect_sameSecret hsealed hc (effect_of_exec h)

/-! ## HOLDOFF and the active frame (R71, R163) -/

/-- The law reads the touchdown state, HOLDOFF and the active frame. -/
theorem holdoffLaw_congr {s t : State} (h : holdoffLaw s) (hs : t.touchdown.state = s.touchdown.state)
    (hh : t.touchdown.holdoff = s.touchdown.holdoff) (hf : t.touchdown.activeFrame = s.touchdown.activeFrame) :
    holdoffLaw t := by
  rw [holdoffLaw, hs, hh, hf]
  exact h

theorem holdoffLaw_of_touchdown {s t : State} (h : holdoffLaw s) (e : t.touchdown = s.touchdown) : holdoffLaw t :=
  holdoffLaw_congr h (by rw [e]) (by rw [e]) (by rw [e])

/-- No request touches HOLDOFF, the touchdown state or the active frame. -/
theorem holdoffLaw_keptByRequests : KeptByRequests holdoffLaw where
  blind h hs := holdoffLaw_of_touchdown hs h.touchdown
  move {s t} h hs := by
    cases h with
    | aborts => exact holdoffLaw_congr hs (by simp) (by simp) (by simp)
    | _ => exact holdoffLaw_congr hs rfl rfl rfl

/-- In IDLE and WAIT_LIFT the law asks for no HOLDOFF and no active frame. -/
theorem holdoffLaw_at_rest {s : State} (hstate : s.touchdown.state = .idle ∨ s.touchdown.state = .waitLift)
    (hh : s.touchdown.holdoff = false) (hf : s.touchdown.activeFrame = none) : holdoffLaw s := by
  rw [holdoffLaw, hh, hf]
  rcases hstate with h | h <;> simp [h]

/-- Outside ACTIVE no frame is active. -/
theorem activeFrame_of_not_active {s : State} (h : holdoffLaw s) (hs : s.touchdown.state ≠ .active) :
    s.touchdown.activeFrame = none := by
  by_contra hf
  exact hs (h.2.mp (Option.isSome_iff_ne_none.mpr hf))

theorem takeRise_holdoffLaw {s : State} (h : holdoffLaw s) : holdoffLaw (takeRise s) := by
  unfold takeRise
  dsimp only
  split
  next hidle =>
    have hf : s.touchdown.activeFrame = none := activeFrame_of_not_active h (by simp [hidle])
    exact ⟨by simp [beginTouchdown], by simp [beginTouchdown, hf]⟩
  · exact holdoffLaw_congr h rfl rfl rfl
  · exact holdoffLaw_congr h rfl rfl rfl
  · exact holdoffLaw_congr h rfl rfl rfl

theorem takeFall_holdoffLaw {s : State} (h : holdoffLaw s) : holdoffLaw (takeFall s) := by
  unfold takeFall
  dsimp only
  split
  · exact holdoffLaw_congr h rfl rfl rfl
  next hset =>
    have hf : s.touchdown.activeFrame = none := activeFrame_of_not_active h (by simp [hset])
    exact holdoffLaw_keptByRequests.closeIfDraining (holdoffLaw_at_rest (.inl rfl) rfl hf) (.inl rfl)
  · unfold fallInActive
    split
    · exact holdoffLaw_congr h rfl rfl rfl
    · split
      · exact holdoffLaw_congr h rfl rfl rfl
      · exact holdoffLaw_congr h (by simp) (by simp) (by simp)
  next hlift =>
    have hf : s.touchdown.activeFrame = none := activeFrame_of_not_active h (by simp [hlift])
    refine holdoffLaw_at_rest (.inl rfl) ?_ hf
    exact Bool.eq_false_iff.mpr fun hh => by simpa [hlift] using h.1.mp hh

/-- The notification of a settle expiry leaves the touchdown settling. -/
theorem notifyUnit_touchdown_state (s : State) : (notifyUnit s).touchdown.state = s.touchdown.state := by
  have K : KeptByRequests fun t => t.touchdown.state = s.touchdown.state :=
    { blind := fun h hs => by rw [h.touchdown]; exact hs
      move := fun h hs => by cases h <;> simpa using hs }
  exact K.notifyUnit rfl

theorem considerFrame_holdoffLaw {s : State} (h : holdoffLaw s) (hset : s.touchdown.state = .settling) (late : SiteSet) :
    holdoffLaw (considerFrame s late) := by
  unfold considerFrame
  dsimp only
  split
  · refine forSites_inv holdoffLaw (fun x i hx => holdoffLaw_of_touchdown hx (by simp)) _ _ ?_
    have hh : s.touchdown.holdoff = true := h.1.mpr (.inl hset)
    exact ⟨by simp [takeFrame, hh], by simp [takeFrame]⟩
  · have hf : s.touchdown.activeFrame = none := activeFrame_of_not_active h (by simp [hset])
    exact holdoffLaw_keptByRequests.closeIfDraining (holdoffLaw_at_rest (.inr rfl) rfl hf) (.inr rfl)

/-- Every effect keeps the law. -/
theorem effect_holdoffLaw {c : Instr} {s t : State} (hs : holdoffLaw s) (h : Effect c s t) : holdoffLaw t := by
  have K := holdoffLaw_keptByRequests
  have keep {t : State} (e : t.touchdown = s.touchdown) : holdoffLaw t := holdoffLaw_of_touchdown hs e
  cases h with
  | powerOnReset => exact holdoffLaw_at_rest (.inl rfl) rfl rfl
  | startupEnd =>
    rw [startedUp_eq]
    exact K.examineIfPending (holdoffLaw_congr hs rfl rfl rfl)
  | softReset order =>
    have : (softlyReset order s).touchdown = resetTouchdown s.touchdown := by simp [softlyReset, resetStepOne]
    exact holdoffLaw_at_rest (.inl (by rw [this]; rfl)) (by rw [this]; rfl) (by rw [this]; rfl)
  | softResetEnd =>
    rw [softResetEnded_eq]
    exact K.examineIfPending (holdoffLaw_congr hs rfl rfl rfl)
  | notify => exact K.notifyUnit hs
  | request => exact K.reexamine (K.carryOut hs _)
  | rise => exact takeRise_holdoffLaw (s := { s with contactLine := true }) hs
  | fall => exact takeFall_holdoffLaw (s := { s with contactLine := false }) hs
  | settleExpiry m hset =>
    refine considerFrame_holdoffLaw (K.notifyUnit (holdoffLaw_congr hs ?_ ?_ ?_)) ?_ _
    · rfl
    · rfl
    · rfl
    · rw [notifyUnit_touchdown_state]; exact hset
  | frameDone =>
    refine K.finishFrame (holdoffLaw_at_rest ?_ ?_ ?_) fun hx => holdoffLaw_congr hx rfl rfl rfl
    · rw [leaveActive_eq]
      dsimp only
      split
      · exact .inr rfl
      · exact .inl rfl
    · rw [leaveActive_eq]
    · rw [leaveActive_eq]
  | freshGranted _ _ _ ht => obtain ⟨u, rfl, rfl | rfl⟩ := ht <;> exact keep (by simp)
  | resumeGranted _ _ _ ht => obtain ⟨u, rfl, rfl | rfl⟩ := ht <;> exact keep (by simp)
  | freshRefused _ _ ht => obtain rfl | ⟨o, rfl⟩ := ht <;> exact keep (by simp)
  | resumeRefused _ _ ht => obtain rfl | rfl | ⟨g, rfl⟩ := ht <;> exact keep (by simp)
  | pulseEnd => split <;> exact keep (by simp)
  | _ => exact keep (by simp [clearAttention, takeInterruption])

/-- Settles O8. -/
theorem holdoffAndActiveFrameFollowTheTouchdown : Obligations.HoldoffAndActiveFrameFollowTheTouchdown :=
  fun _ _ hs h => step_keeps (P := holdoffLaw) (fun _ _ h => h) (fun _ _ _ h e => effect_holdoffLaw h e) hs h

end Sys2Proof.Machine
end

section
/-!
The laws of the lot controller that every step keeps: conservation (R15), allocation (R6), the places of the resume list (R8),
and the seal (R29). `LotMove` says once what a claim, a report or SPOIL_INDEX makes of the lot controller.
-/

namespace Sys2Proof.Machine

/-! ## The moves of the lot controller -/

/-- What a claim, a report or SPOIL_INDEX makes of the lot controller. -/
inductive LotMove : LotController → LotController → Prop
  | same (l : LotController) : LotMove l l
  | grants {l : LotController} (hn : l.nextIndex ≠ l.last + 1) :
      LotMove l { l with nextIndex := l.nextIndex + 1, freshBound := l.freshBound + 1 }
  | updates (l : LotController) (n : Nat) (f : ResumeEntry → ResumeEntry) : LotMove l (updateEntry l n f)
  | spoilsListed {l : LotController} {n : Nat} {e : ResumeEntry} (he : entryOf l n = some e) :
      LotMove l { removeEntry l n with spoiled := l.spoiled + 1 }
  | commitsListed {l : LotController} {n : Nat} {e : ResumeEntry} (he : entryOf l n = some e) :
      LotMove l { removeEntry l n with committed := l.committed + 1 }
  | spoilsFresh {l : LotController} (hf : l.freshBound ≠ 0) :
      LotMove l { l with freshBound := l.freshBound - 1, spoiled := l.spoiled + 1 }
  | commitsFresh {l : LotController} (hf : l.freshBound ≠ 0) :
      LotMove l { l with freshBound := l.freshBound - 1, committed := l.committed + 1 }
  | holds {l : LotController} (e : ResumeEntry) (hf : l.freshBound ≠ 0) (hroom : l.resumeList.length < 64) :
      LotMove l { l with freshBound := l.freshBound - 1, resumeList := l.resumeList ++ [e] }

theorem spoilFresh_moves (l : LotController) : LotMove l (spoilFresh l) := by
  unfold spoilFresh
  split
  · exact .same l
  next hf => exact .spoilsFresh hf

theorem spoilListed_moves (l : LotController) (n : Nat) : LotMove l (spoilListed l n) := by
  unfold spoilListed
  split
  · exact .same l
  next e he => exact .spoilsListed he

theorem afterFreshClaim_moves (l : LotController) : LotMove l (afterFreshClaim l) := by
  unfold afterFreshClaim freshAnswer
  by_cases hn : l.nextIndex = l.last + 1
  · simpa [hn] using LotMove.same l
  · by_cases hd : l.state = .draining
    · simpa [hn, hd] using LotMove.same l
    · simpa [hn, hd] using LotMove.grants hn

theorem afterCommit_moves (l : LotController) (b : BoundIndex) : LotMove l (afterCommit l b) := by
  unfold afterCommit
  split
  · split
    · exact .same l
    next hf => exact .commitsFresh hf
  · split
    · exact .same l
    next e he => exact .commitsListed he

theorem afterSpoil_moves (l : LotController) (b : BoundIndex) : LotMove l (afterSpoil l b) := by
  unfold afterSpoil
  split
  · exact spoilFresh_moves l
  · exact spoilListed_moves l b.index

theorem afterHold_moves (l : LotController) (n : Nat) (w : Word) (x y : Half) : LotMove l (afterHold l n w x y) := by
  unfold afterHold
  split
  · exact .same l
  next hf =>
    split
    next hroom => exact .holds _ hf (of_decide_eq_true hroom)
    · exact spoilFresh_moves l

theorem afterRelease_moves (l : LotController) (n : Nat) : LotMove l (afterRelease l n) := by
  unfold afterRelease
  split
  · exact spoilListed_moves l n
  · exact .updates l n _

theorem afterReport_moves (l : LotController) (b : BoundIndex) (w : Word) (x y : Half) (r : Report) :
    LotMove l (afterReport l b w x y r) := by
  cases r with
  | commit => exact afterCommit_moves l b
  | spoil cause => exact afterSpoil_moves l b
  | hold => exact afterHold_moves l b.index w x y
  | release => exact afterRelease_moves l b.index

/-- A move keeps the lot state. -/
theorem LotMove.state {l l' : LotController} (h : LotMove l l') : l'.state = l.state := by
  cases h <;> rfl

/-- A move keeps the law of conservation (R15). -/
theorem LotMove.conserves {l l' : LotController} (h : LotMove l l') (hl : lotConserved l) : lotConserved l' := by
  intro hstate
  have hcount := hl (h.state ▸ hstate)
  cases h with
  | same => exact hcount
  | grants => simp only; omega
  | updates n f => rw [updateEntry_length]; exact hcount
  | spoilsListed he =>
    have hlength := removeEntry_length he
    simp only [removeEntry] at hlength ⊢
    omega
  | commitsListed he =>
    have hlength := removeEntry_length he
    simp only [removeEntry] at hlength ⊢
    omega
  | spoilsFresh hf => simp only; omega
  | commitsFresh hf => simp only; omega
  | holds e hf hroom => simp only [List.length_append, List.length_singleton]; omega

/-- A move keeps the allocation in range (R6). -/
theorem LotMove.allocates {l l' : LotController} (h : LotMove l l') (hl : allocationInRange l) : allocationInRange l' := by
  intro hstate
  have hrange := hl (h.state ▸ hstate)
  cases h with
  | grants hn => simp only; omega
  | _ => exact hrange

/-- A move keeps the list within its places (R8, R9). -/
theorem LotMove.places {l l' : LotController} (h : LotMove l l') (hl : listWithinPlaces l) : listWithinPlaces l' := by
  unfold listWithinPlaces at hl ⊢
  cases h with
  | updates n f => rw [updateEntry_length]; exact hl
  | spoilsListed he =>
    have hlength := removeEntry_length he
    simp only
    omega
  | commitsListed he =>
    have hlength := removeEntry_length he
    simp only
    omega
  | holds e hf hroom => simp only [List.length_append, List.length_singleton]; omega
  | _ => exact hl

/-! ## The lot of every effect -/

/-- A site that gives up its fresh index leaves the resume list (R22). -/
theorem giveUpFresh_resumeList (s : State) (i : Site) : (giveUpFresh s i).lot.resumeList = s.lot.resumeList := by
  unfold giveUpFresh
  split
  · split
    · simp only [modifyChannel, setChannel_lot, setLot_lot, spoilFreshByReset, spoilFresh]
      repeat' split
      all_goals rfl
    · rfl
  · rfl

/-- A soft reset leaves no lot and, when there was one, an empty resume list (R22). -/
theorem softlyReset_lot (order : List Site) (s : State) :
    (softlyReset order s).lot.state = .noLot ∧
      ((softlyReset order s).lot.resumeList = [] ∨ (softlyReset order s).lot = s.lot) := by
  have hlot : (softlyReset order s).lot = (resetClosure (resetStepOne s) order).lot := by simp [softlyReset]
  rw [hlot]
  unfold resetClosure
  split
  next h => exact ⟨h, .inr (by simp)⟩
  next => exact ⟨rfl, .inl (by simp [forSites_keeps (fun s => s.lot.resumeList) giveUpFresh_resumeList, spoilList])⟩

theorem takeReport_lot (s : State) (i : Site) (r : Report) : LotMove s.lot (takeReport s i r).lot := by
  unfold takeReport
  split
  · exact .same _
  next b _ =>
    simp only [finish_keeps, setLot_lot]
    exact afterReport_moves s.lot b _ _ _ r

/-- A law of the lot controller and of whether the secret is sealed. -/
structure LotLaw (P : State → Prop) : Prop where
  requests : KeptByRequests P
  reset : ∀ {s t}, t.lot.state = .noLot → t.lot.resumeList = [] ∨ t.lot = s.lot → P s → P t
  claim : ∀ {s t}, LotMove s.lot t.lot → t.derivation.state = s.derivation.state → P s → P t

theorem LotLaw.congr {P : State → Prop} (L : LotLaw P) {s t : State} (hl : t.lot = s.lot)
    (hd : t.derivation.state = s.derivation.state) (hs : P s) : P t :=
  L.claim (by rw [hl]; exact .same _) hd hs

/-- Every effect keeps a law of the lot controller. -/
theorem LotLaw.effect {P : State → Prop} (L : LotLaw P) {c : Instr} {s t : State} (hs : P s) (h : Effect c s t) : P t := by
  have K := L.requests
  have keep {t : State} (hl : t.lot = s.lot) (hd : t.derivation = s.derivation) : P t := L.congr hl (by rw [hd]) hs
  cases h with
  | powerOnReset => exact L.reset (s := s) rfl (.inl rfl) hs
  | startupEnd => exact K.examineIfPending (by rw [startedUp_eq]; exact keep rfl rfl)
  | softReset order =>
    obtain ⟨hstate, hlist⟩ := softlyReset_lot order s
    exact L.reset hstate hlist hs
  | softResetEnd => exact K.examineIfPending (by rw [softResetEnded_eq]; exact keep rfl rfl)
  | notify => exact K.notifyUnit hs
  | request => exact K.reexamine (K.carryOut hs _)
  | fall =>
    unfold takeFall
    dsimp only
    split
    · exact keep rfl rfl
    · exact K.closeIfDraining (keep rfl rfl) (.inl rfl)
    · exact keep (by simp) (by simp)
    · exact keep rfl rfl
  | settleExpiry m =>
    have hnotified := K.notifyUnit (s := latch s m.contactSense) (keep rfl rfl)
    unfold considerFrame
    dsimp only
    split
    · refine forSites_inv P (fun x i hx => L.congr (by simp) (by simp) hx) _ _ ?_
      exact L.congr (by simp) (by simp) hnotified
    · exact K.closeIfDraining (L.congr (by simp) (by simp) hnotified) (.inr rfl)
  | frameDone => exact K.finishFrame (keep (by simp) (by simp)) fun {x} hx => L.congr (s := x) rfl rfl hx
  | freshGranted _ _ _ ht =>
    have hmove := afterFreshClaim_moves s.lot
    obtain ⟨u, rfl, rfl | rfl⟩ := ht <;> exact L.claim (by simpa using hmove) (by simp) hs
  | @resumeGranted i _ _ _ n _ _ ht =>
    have hmove := LotMove.updates s.lot n fun e => { e with claimedBy := some i }
    obtain ⟨u, rfl, rfl | rfl⟩ := ht <;> exact L.claim (by simpa using hmove) (by simp) hs
  | freshRefused _ _ ht => obtain rfl | ⟨o, rfl⟩ := ht <;> exact keep (by simp) (by simp)
  | resumeRefused _ _ ht => obtain rfl | rfl | ⟨g, rfl⟩ := ht <;> exact keep (by simp) (by simp)
  | report => exact L.claim (takeReport_lot s _ _) (by simp) hs
  | @keyRequest i b => exact L.congr (by simp) (by simp [(queueKey_secret s i b).2.1]) hs
  | keyDelivered => exact L.congr (by simp) (by simp [(beginNextKey_secret s.lot s.derivation).2.1]) hs
  | keyDiscarded => exact L.congr (by simp) (by simp [(beginNextKey_secret s.lot s.derivation).2.1]) hs
  | keyWithdrawal => exact L.congr (by simp) (by simp [withdrawKey]) hs
  | pulseEnd => split <;> exact keep (by simp) (by simp)
  | _ => exact keep (by simp [clearAttention, takeInterruption]) (by simp [clearAttention, takeInterruption])

/-! ## Conservation (R15) -/

theorem lotConserved_lotLaw : LotLaw fun s => lotConserved s.lot where
  reset hstate _ _ hopen := absurd hstate hopen
  claim hmove _ := hmove.conserves
  requests :=
    { blind := fun h hs => by rw [h.lot]; exact hs
      move := fun {s t} h hs => by
        cases h with
        | opens => exact fun _ => rfl
        | closes => exact fun hopen => absurd rfl hopen
        | drains hl => exact fun _ => hs (by simp [hl])
        | spoils => exact (spoilListed_moves _ _).conserves hs
        | aborts => simpa using hs
        | _ => exact hs }

/-- Settles O6: every move of the lot controller keeps the sum. -/
theorem lotConservationIsKept : Obligations.LotConservationIsKept := fun _ _ hs h =>
  step_keeps (P := fun s => lotConserved s.lot) (fun _ _ h => h) (fun _ _ _ h e => lotConserved_lotLaw.effect h e) hs h

/-! ## Allocation, places and seal (R6, R8, R29) -/

/-- The bounds of a lot and its seal. -/
def lotBounds (s : State) : Prop := allocationInRange s.lot ∧ listWithinPlaces s.lot ∧ lotOnlyUnderSeal s

theorem lotBounds_lotLaw : LotLaw lotBounds where
  reset {s t} hstate hlist hs := by
    obtain ⟨-, hplaces, -⟩ := hs
    refine ⟨fun hopen => absurd hstate hopen, ?_, fun hopen => absurd hstate hopen⟩
    rcases hlist with h | h
    · simp [listWithinPlaces, h]
    · rw [h]; exact hplaces
  claim hmove hd hs := by
    obtain ⟨hrange, hplaces, hseal⟩ := hs
    exact ⟨hmove.allocates hrange, hmove.places hplaces, fun hopen => hd.trans (hseal (hmove.state ▸ hopen))⟩
  requests :=
    { blind := fun h hs => by
        obtain ⟨hrange, hplaces, hseal⟩ := hs
        exact ⟨by rw [h.lot]; exact hrange, by rw [h.lot]; exact hplaces, by
          rw [lotOnlyUnderSeal, h.lot, h.derivation]; exact hseal⟩
      move := fun {s t} h hs => by
        obtain ⟨hrange, hplaces, hseal⟩ := hs
        cases h with
        | opens total _ _ hd hr => exact ⟨fun _ => Nat.le_succ_of_le hr, Nat.zero_le _, fun _ => hd⟩
        | closes => exact ⟨fun hopen => absurd rfl hopen, Nat.zero_le _, fun hopen => absurd rfl hopen⟩
        | drains hl => exact ⟨fun _ => hrange (by simp [hl]), hplaces, fun _ => hseal (by simp [hl])⟩
        | @spoils n e hl he =>
          have hmove := spoilListed_moves s.lot n
          exact ⟨hmove.allocates hrange, hmove.places hplaces, fun _ => hseal hl⟩
        | loads _ _ hd => exact ⟨hrange, hplaces, fun hopen => absurd (hseal hopen) hd⟩
        | seals => exact ⟨hrange, hplaces, fun _ => rfl⟩
        | aborts => exact ⟨by simpa using hrange, by simpa using hplaces, by simpa [lotOnlyUnderSeal] using hseal⟩
        | _ => exact ⟨hrange, hplaces, hseal⟩ }

/-- Every step keeps the bounds of a lot and its seal. -/
theorem step_lotBounds {s t : State} (hs : lotBounds s) (h : step s = .next t) : lotBounds t :=
  step_keeps (P := lotBounds) (fun _ _ h => h) (fun _ _ _ h e => lotBounds_lotLaw.effect h e) hs h

end Sys2Proof.Machine
end

section
/-!
What a channel does with a response, an interruption or a key, said once: `Turn c c'` is what the laws of work (R15, R80) and of
holding (R8) need of a channel that goes from `c` to `c'` while it keeps its index.
-/

namespace Sys2Proof.Machine

/-! ## Turns of a channel -/

/-- The channel goes on from `c` to `c'`: it keeps its index, what is outstanding fits the index again, and it either has
finished, or goes on working beyond the lot check. -/
structure Turn (c c' : SiteChannel) : Prop where
  bound : indexFitsActivity c → c'.bound = c.bound
  fits : indexFitsActivity c → indexFitsActivity c'
  works : c.state ≠ .done → (c'.activity = .finished ∧ c'.bound = none) ∨ (c'.state ≠ .done ∧ c'.activity ≠ .starting)

/-- An activity that asks nothing of the index: neither of the scan, nor of a DISARM, nor a report of a hold or a release. -/
def freeOfIndex (a : Activity) : Prop :=
  a ≠ .starting ∧ a ≠ .claimingFresh ∧ a ≠ .claimingResume ∧ a ≠ .reporting .hold ∧ a ≠ .reporting .release ∧
    ∀ task, a = .naming task ∨ a = .exchanging task → task ∉ scanTasks ∧ task ≠ .disarm

/-- An activity before a claim is granted, which asks that no index is held. -/
def beforeIndex (a : Activity) : Prop :=
  a = .starting ∨ a = .claimingFresh ∨ a = .claimingResume ∨ ∃ task ∈ scanTasks, a = .naming task ∨ a = .exchanging task

/-- Only through a DISARM is a report owed. -/
theorem owed_eq_none {c : SiteChannel} (h : indexFitsActivity c) (hn : c.activity ≠ .naming .disarm)
    (he : c.activity ≠ .exchanging .disarm) : c.owed = none := by
  by_contra ho
  exact (h.2.2.1 ho).elim hn he

theorem beforeIndex_ne_disarm {a : Activity} (h : beforeIndex a) : a ≠ .naming .disarm ∧ a ≠ .exchanging .disarm := by
  rcases h with rfl | rfl | rfl | ⟨task, htask, rfl | rfl⟩
  · simp
  · simp
  · simp
  all_goals
    constructor <;> intro h
    all_goals
      cases h
      try exact absurd htask (by decide)

/-- A channel whose activity is free of the index fits any index, when it owes nothing. -/
theorem indexFits_of_free {c : SiteChannel} (ha : freeOfIndex c.activity) (ho : c.owed = none) : indexFitsActivity c := by
  obtain ⟨hstart, hfresh, hresume, hhold, hrelease, htask⟩ := ha
  refine ⟨?_, ?_, fun h => absurd ho h, fun b _ => ⟨?_, ?_⟩⟩
  · rintro (h | h | h | ⟨task, hmem, h⟩)
    · exact absurd h hstart
    · exact absurd h hfresh
    · exact absurd h hresume
    · exact absurd hmem (htask task h).1
  · intro h
    exact absurd rfl (htask .disarm h).2
  · rintro (h | h)
    · exact absurd h hhold
    · rw [ho] at h; cases h
  · rintro (h | h)
    · exact absurd h hrelease
    · rw [ho] at h; cases h

/-- A channel that holds no index fits any activity but a DISARM, when it owes nothing. -/
theorem indexFits_of_unbound {c : SiteChannel} (hb : c.bound = none) (ho : c.owed = none) : indexFitsActivity c :=
  ⟨fun _ => hb, fun _ => by simp [hb, ho], fun h => absurd ho h, fun b h => by rw [hb] at h; cases h⟩

namespace Turn

/-- A channel without an index finishes. -/
theorem ends {c c' : SiteChannel} (ha : c'.activity = .finished) (hb' : c'.bound = none) (ho : c'.owed = none)
    (hb : indexFitsActivity c → c.bound = none) : Turn c c' where
  bound h := hb'.trans (hb h).symm
  fits _ := indexFits_of_unbound hb' ho
  works _ := .inl ⟨ha, hb'⟩

/-- A channel goes on to something that asks nothing of its index. -/
theorem goesOn {c c' : SiteChannel} (ha : freeOfIndex c'.activity) (hb : c'.bound = c.bound)
    (ho : indexFitsActivity c → c'.owed = none) (hs : c.state ≠ .done → c'.state ≠ .done) : Turn c c' where
  bound _ := hb
  fits h := indexFits_of_free ha (ho h)
  works h := .inr ⟨hs h, ha.1⟩

/-- A channel without an index goes on with its scan. -/
theorem scans {c c' : SiteChannel} (ha : c'.activity ≠ .starting) (hb : c'.bound = c.bound)
    (hn : indexFitsActivity c → c.bound = none) (ho : indexFitsActivity c → c'.owed = none)
    (hs : c.state ≠ .done → c'.state ≠ .done) : Turn c c' where
  bound _ := hb
  fits h := indexFits_of_unbound (hb.trans (hn h)) (ho h)
  works h := .inr ⟨hs h, ha⟩

/-- A channel sends a report that suits its index. -/
theorem reports {c c' : SiteChannel} {r : Report} (ha : c'.activity = .reporting r) (hb : c'.bound = c.bound)
    (ho : c'.owed = none) (hs : c'.state = c.state)
    (hr : indexFitsActivity c → ∀ b ∈ c.bound, (r = .hold → b.kind = .fresh) ∧ (r = .release → b.kind = .resumed)) :
    Turn c c' where
  bound _ := hb
  fits h := by
    refine ⟨by simp [ha], by simp [ha], fun hx => absurd ho hx, fun b hb' => ?_⟩
    rw [hb] at hb'
    obtain ⟨hhold, hrelease⟩ := hr h b hb'
    simp only [ha, ho, Activity.reporting.injEq, reduceCtorEq, or_false]
    exact ⟨hhold, hrelease⟩
  works h := .inr ⟨by rw [hs]; exact h, by simp [ha]⟩

/-- A channel names the DISARM before a report that suits its index. -/
theorem disarms {c c' : SiteChannel} (ha : c'.activity = .naming .disarm) (hb : c'.bound = c.bound) (hs : c'.state = c.state)
    (ho : c'.owed = none ↔ c.bound = none)
    (hr : ∀ b ∈ c.bound, (c'.owed = some .hold → b.kind = .fresh) ∧ (c'.owed = some .release → b.kind = .resumed)) :
    Turn c c' where
  bound _ := hb
  fits _ := by
    refine ⟨?_, fun _ => by rw [hb]; exact ho, fun _ => .inl ha, fun b hb' => ?_⟩
    · intro hx
      exact absurd ha (beforeIndex_ne_disarm hx).1
    · rw [hb] at hb'
      simpa [ha] using hr b hb'
  works h := .inr ⟨by rw [hs]; exact h, by simp [ha]⟩

end Turn

/-! ## The decision of R111 -/

theorem reportDecision_eq_none {c : SiteChannel} : reportDecision c = none ↔ c.bound = none := by
  unfold reportDecision
  cases hb : c.bound with
  | none => simp
  | some b =>
    obtain ⟨n, k⟩ := b
    cases k
    · dsimp only
      repeat' split
      all_goals simp
    · simp

/-- The decision suits the index: a hold is of a fresh one, a release of a resumed one. -/
theorem reportDecision_suits {c : SiteChannel} {b : BoundIndex} (hb : b ∈ c.bound) :
    (reportDecision c = some .hold → b.kind = .fresh) ∧ (reportDecision c = some .release → b.kind = .resumed) := by
  have hb : c.bound = some b := hb
  unfold reportDecision
  rw [hb]
  obtain ⟨n, k⟩ := b
  cases k
  · dsimp only
    repeat' split
    all_goals simp
  · simp

/-! ## The turns of the shared operations -/

theorem channelOf_finish (s : State) (i : Site) (d : Disposition) (cause : Option SpoilCause) :
    channelOf (finish s i d cause) i =
      { channelOf s i with
        bound := none, target := none, remaining := [], owed := none, state := .done, activity := .finished
        recordCoordinates := notedCoordinates s.touchdown.activeFrame (channelOf s i) } := by
  have : channelOf (writeRecord s i d cause) i = channelOf s i := by simp [channelOf]
  rw [finish, channelOf_modifyChannel, this]

theorem finish_turn {s : State} {i : Site} (d : Disposition) (cause : Option SpoilCause)
    (hb : indexFitsActivity (channelOf s i) → (channelOf s i).bound = none) :
    Turn (channelOf s i) (channelOf (finish s i d cause) i) := by
  rw [channelOf_finish]
  exact .ends rfl rfl rfl hb

theorem endDie_turn {s : State} {i : Site} (o : Outcome) (d : Disposition)
    (hb : indexFitsActivity (channelOf s i) → (channelOf s i).bound = none) :
    Turn (channelOf s i) (channelOf (endDie s i o d) i) := by
  rw [endDie, channelOf_finish, channelOf_modifyChannel]
  exact .ends rfl rfl rfl hb

/-- A burn that failed is reported as a spoil. -/
theorem spoilAt_turn {s : State} {i : Site} (o : Outcome) (cause : SpoilCause) (p : Option Nat)
    (ho : indexFitsActivity (channelOf s i) → (channelOf s i).owed = none) :
    Turn (channelOf s i) (channelOf (spoilAt s i o cause p) i) := by
  rw [spoilAt, reportOutcome, channelOf_modifyChannel, channelOf_modifyChannel]
  exact .goesOn (by simp [freeOfIndex]) rfl ho id

/-- What a channel owes through a DISARM it now sends, or it finishes. -/
theorem sendOwed_turn {s : State} {i : Site} (ho : indexFitsActivity (channelOf s i) →
    ((channelOf s i).owed = none ↔ (channelOf s i).bound = none)) : Turn (channelOf s i) (channelOf (sendOwed s i) i) := by
  unfold sendOwed
  split
  next hn => exact finish_turn _ _ fun h => (ho h).mp hn
  next r hr =>
    rw [channelOf_modifyChannel]
    refine .reports (r := r) rfl rfl rfl rfl fun h b hb => ?_
    obtain ⟨hhold, hrelease⟩ := h.2.2.2 b hb
    exact ⟨fun e => hhold (.inr (e ▸ hr)), fun e => hrelease (.inr (e ▸ hr))⟩

/-- The channel from which `dispose` sends or finishes. -/
def disposing (c : SiteChannel) : SiteChannel :=
  { c with outcome := some (interruptOutcome c), owed := reportDecision c, target := none, remaining := [] }

theorem dispose_eq (s : State) (i : Site) :
    dispose s i =
      if (channelOf s i).interruption = some .aborted ∧ (channelOf s i).dieArmed then
        setActivity (modifyChannel s i disposing) i (.naming .disarm)
      else sendOwed (modifyChannel s i disposing) i := rfl

/-- What `sendOwed` makes of the channel. -/
theorem channelOf_sendOwed (s : State) (i : Site) :
    channelOf (sendOwed s i) i =
      match (channelOf s i).owed with
      | none =>
        { channelOf s i with
          bound := none, target := none, remaining := [], owed := none, state := .done, activity := .finished
          recordCoordinates := notedCoordinates s.touchdown.activeFrame (channelOf s i) }
      | some r => { channelOf s i with owed := none, activity := .reporting r } := by
  cases howed : (channelOf s i).owed with
  | none =>
    have hsend : sendOwed s i = finish s i .none none := by simp [sendOwed, howed]
    rw [hsend]
    exact channelOf_finish s i .none none
  | some r =>
    have hsend : sendOwed s i = modifyChannel s i fun c => { c with owed := none, activity := .reporting r } := by
      simp [sendOwed, howed]
    rw [hsend]
    exact channelOf_modifyChannel s i _

/-- An interrupted channel disposes of its index by the decision of R111, which suits it. -/
theorem dispose_turn (s : State) (i : Site) : Turn (channelOf s i) (channelOf (dispose s i) i) := by
  rw [dispose_eq]
  split
  · rw [channelOf_setActivity, channelOf_modifyChannel]
    exact .disarms rfl rfl rfl reportDecision_eq_none fun b hb => reportDecision_suits hb
  · rw [channelOf_sendOwed, channelOf_modifyChannel]
    split
    next hn => exact .ends rfl rfl rfl fun _ => reportDecision_eq_none.mp hn
    next r hr =>
      refine .reports (r := r) rfl rfl rfl rfl fun _ b hb => ?_
      obtain ⟨hhold, hrelease⟩ := reportDecision_suits hb
      exact ⟨fun e => hhold (e ▸ hr), fun e => hrelease (e ▸ hr)⟩

theorem interruptByLink_turn (s : State) (i : Site) : Turn (channelOf s i) (channelOf (interruptByLink s i) i) := by
  have := dispose_turn (modifyChannel s i fun c => { c with interruption := some .link }) i
  rw [channelOf_modifyChannel] at this
  exact ⟨this.bound, this.fits, this.works⟩

/-- A failed exchange or status ends a die without an index and interrupts one with an index (R94, R113). -/
theorem unexpectedStatus_turn (s : State) (i : Site) : Turn (channelOf s i) (channelOf (unexpectedStatus s i) i) := by
  unfold unexpectedStatus
  split
  next hb => exact endDie_turn _ _ fun _ => Option.isNone_iff_eq_none.mp hb
  next => exact interruptByLink_turn s i

/-- A link failure gives an exchanging channel a turn, and any other nothing. -/
theorem channelLinkFailure_turn (s : State) (i : Site) :
    (∃ task, (channelOf s i).activity = .exchanging task) ∧
        Turn (channelOf s i) (channelOf (channelLinkFailure s i) i) ∨
      channelLinkFailure s i = s := by
  unfold channelLinkFailure
  split
  next ha => exact .inl ⟨⟨_, ha⟩, sendOwed_turn fun h => h.2.1 (.inr ha)⟩
  next task _ ha =>
    refine .inl ⟨⟨_, ha⟩, ?_⟩
    split
    next hb => exact endDie_turn _ _ fun _ => Option.isNone_iff_eq_none.mp hb
    next => exact interruptByLink_turn s i
  next => exact .inr rfl

/-! ## The turns of the responses -/

/-- A channel in the exchange of a scan holds no index and owes none. -/
theorem unbound_of_exchanging {c : SiteChannel} {task : LinkTask} (ha : c.activity = .exchanging task) (ht : task ∈ scanTasks)
    (h : indexFitsActivity c) : c.bound = none ∧ c.owed = none := by
  have hbefore : beforeIndex c.activity := .inr (.inr (.inr ⟨task, ht, .inr ha⟩))
  obtain ⟨hn, he⟩ := beforeIndex_ne_disarm hbefore
  exact ⟨h.1 hbefore, owed_eq_none h hn he⟩

theorem owed_of_exchanging {c : SiteChannel} {task : LinkTask} (ha : c.activity = .exchanging task) (ht : task ≠ .disarm)
    (h : indexFitsActivity c) : c.owed = none :=
  owed_eq_none h (by simp [ha]) (by simp [ha, ht])

theorem phaseOf_ne_done (p : Nat) : phaseOf p ≠ .done := by
  unfold phaseOf
  repeat' split
  all_goals simp

section Responses

variable {s : State} {i : Site}

theorem identResponse_turn (ha : (channelOf s i).activity = .exchanging .ident) (data : List Byte) :
    Turn (channelOf s i) (channelOf (identResponse s i data) i) := by
  have hunbound := unbound_of_exchanging ha (by decide)
  unfold identResponse
  dsimp only
  split
  · exact endDie_turn _ _ fun h => (hunbound h).1
  · split
    · exact endDie_turn _ _ fun h => (hunbound h).1
    · rw [channelOf_modifyChannel]
      exact .scans (by simp) rfl (fun h => (hunbound h).1) (fun h => (hunbound h).2) fun _ => by simp

/-- A die of the scan ends with figures of its own. -/
theorem endDie_figures_turn (f : SiteChannel → Figures) (o : Outcome) (d : Disposition)
    (hb : indexFitsActivity (channelOf s i) → (channelOf s i).bound = none) :
    Turn (channelOf s i) (channelOf (endDie (modifyChannel s i fun c => { c with figures := f c }) i o d) i) := by
  rw [endDie, channelOf_finish, channelOf_modifyChannel, channelOf_modifyChannel]
  exact .ends rfl rfl rfl hb

theorem notListed_turn (hb : indexFitsActivity (channelOf s i) → (channelOf s i).bound = none) :
    Turn (channelOf s i) (channelOf (notListed s i) i) := endDie_figures_turn _ _ _ hb

theorem blankReadback_turn (ha : (channelOf s i).activity = .exchanging .blankRead) (x : Image) :
    Turn (channelOf s i) (channelOf (blankReadback s i x) i) := by
  have hunbound := unbound_of_exchanging ha (by decide)
  rw [blankReadback, channelOf_setActivity]
  refine .scans ?_ rfl (fun h => (hunbound h).1) (fun h => (hunbound h).2) id
  dsimp only
  split <;> simp

theorem evalReadback_turn (ha : (channelOf s i).activity = .exchanging .evalRead) (x : Image) :
    Turn (channelOf s i) (channelOf (evalReadback s i x) i) := by
  have hunbound := unbound_of_exchanging ha (by decide)
  unfold evalReadback
  dsimp only
  split
  · rw [channelOf_setActivity, channelOf_modifyChannel]
    exact .scans (by simp) rfl (fun h => (hunbound h).1) (fun h => (hunbound h).2) id
  · rw [notListed, endDie, channelOf_finish, channelOf_modifyChannel, channelOf_modifyChannel, channelOf_modifyChannel]
    exact .ends rfl rfl rfl fun h => (hunbound h).1

/-- The next position of the burn, or the final check. -/
theorem channelOf_nextPosition (s : State) (i : Site) :
    ∃ state task, channelOf (nextPosition s i) i =
      { channelOf s i with state := state, attempt := 1, activity := .naming task } ∧ state ≠ .done ∧
        (task = .lowPoint ∨ task = .arm) := by
  rw [nextPosition, channelOf_modifyChannel]
  split
  · exact ⟨_, _, rfl, by simp, .inl rfl⟩
  · exact ⟨_, _, rfl, phaseOf_ne_done _, .inr rfl⟩

theorem freeOfIndex_naming {task : LinkTask} (h : task = .lowPoint ∨ task = .arm) : freeOfIndex (.naming task) := by
  rcases h with rfl | rfl <;> simp [freeOfIndex, scanTasks]

theorem armResponse_turn (ha : (channelOf s i).activity = .exchanging .arm) (status : Byte) :
    Turn (channelOf s i) (channelOf (armResponse s i status) i) := by
  have howed := owed_of_exchanging ha (by decide)
  unfold armResponse
  split
  · rw [channelOf_modifyChannel]
    exact .goesOn (by simp [freeOfIndex]) rfl howed id
  · split
    · exact spoilAt_turn _ _ _ howed
    · exact interruptByLink_turn s i

theorem verifyReadback_turn (ha : (channelOf s i).activity = .exchanging .verifyRead) (word : Half) :
    Turn (channelOf s i) (channelOf (verifyReadback s i word) i) ∨ verifyReadback s i word = s := by
  have howed := owed_of_exchanging ha (by decide)
  unfold verifyReadback
  dsimp only
  split
  · exact .inr rfl
  · refine .inl ?_
    split
    · exact spoilAt_turn _ _ _ howed
    · unfold notBlown
      split
      · rw [channelOf_modifyChannel]
        exact .goesOn (by simp [freeOfIndex, scanTasks]) rfl howed id
      · exact spoilAt_turn _ _ _ howed
    · obtain ⟨state, task, heq, hstate, htask⟩ := channelOf_nextPosition (modifyChannel s i fun c =>
        { c with remaining := _, figures := { c.figures with blows := c.figures.blows + 1 } }) i
      rw [heq, channelOf_modifyChannel]
      exact .goesOn (freeOfIndex_naming htask) rfl howed fun _ => hstate

theorem lowReadback_turn (ha : (channelOf s i).activity = .exchanging .lowRead) (x : Image) :
    Turn (channelOf s i) (channelOf (lowReadback s i x) i) := by
  have howed := owed_of_exchanging ha (by decide)
  unfold lowReadback
  split
  · exact spoilAt_turn _ _ _ howed
  · rw [channelOf_setActivity]
    exact .goesOn (by simp [freeOfIndex, scanTasks]) rfl howed id

theorem highReadback_turn (ha : (channelOf s i).activity = .exchanging .highRead) (x : Image) :
    Turn (channelOf s i) (channelOf (highReadback s i x) i) := by
  have howed := owed_of_exchanging ha (by decide)
  unfold highReadback
  split
  · exact spoilAt_turn _ _ _ howed
  · rw [reportOutcome, channelOf_modifyChannel]
    exact .goesOn (by simp [freeOfIndex]) rfl howed id

/-- The READ that follows a POINT is of the scan when the POINT is, and never a DISARM. -/
theorem readAfterPoint_task {task t : LinkTask} (h : readAfterPoint task = some t) :
    t ≠ .disarm ∧ task ≠ .disarm ∧ (t ∈ scanTasks ↔ task ∈ scanTasks) := by
  cases task <;> cases h <;> decide

theorem okResponse_turn {task : LinkTask} (ha : (channelOf s i).activity = .exchanging task) (data : List Byte) :
    Turn (channelOf s i) (channelOf (okResponse s i task data) i) ∨ okResponse s i task data = s := by
  unfold okResponse
  split
  next t ht =>
    obtain ⟨hdisarm, hdisarm', hscan⟩ := readAfterPoint_task ht
    rw [channelOf_setActivity]
    refine .inl ?_
    by_cases hmem : task ∈ scanTasks
    · have hunbound := unbound_of_exchanging ha hmem
      exact .scans (by simp) rfl (fun h => (hunbound h).1) (fun h => (hunbound h).2) id
    · refine .goesOn ⟨by simp, by simp, by simp, by simp, by simp, ?_⟩ rfl (owed_of_exchanging ha hdisarm') id
      rintro task' (h | h)
      · cases h
        exact ⟨fun hx => hmem (hscan.mp hx), hdisarm⟩
      · cases h
  next =>
    dsimp only
    split
    · exact .inl (identResponse_turn ha data)
    · exact .inl (endDie_figures_turn _ _ _ fun h => (unbound_of_exchanging ha (by decide) h).1)
    · exact .inl (blankReadback_turn ha _)
    · exact .inl (evalReadback_turn ha _)
    · exact verifyReadback_turn ha _
    · exact .inl (lowReadback_turn ha _)
    · exact .inl (highReadback_turn ha _)
    · exact .inr rfl

/-- A response that is handed on gives an exchanging channel a turn, or does nothing. -/
theorem channelResponse_turn (s : State) (i : Site) (status : Byte) (data : List Byte) :
    (∃ task, (channelOf s i).activity = .exchanging task) ∧
        Turn (channelOf s i) (channelOf (channelResponse s i status data) i) ∨
      channelResponse s i status data = s := by
  unfold channelResponse
  split
  next ha => exact .inl ⟨⟨_, ha⟩, armResponse_turn ha status⟩
  next ha => exact .inl ⟨⟨_, ha⟩, sendOwed_turn fun h => h.2.1 (.inr ha)⟩
  next task _ _ ha =>
    split
    · exact (okResponse_turn ha data).imp_left fun h => ⟨⟨_, ha⟩, h⟩
    · exact .inl ⟨⟨_, ha⟩, unexpectedStatus_turn s i⟩
  next => exact .inr rfl

/-- The key that is delivered begins the burn, or spoils an overblown index (R98, R99). -/
theorem takeKey_turn (ha : (channelOf s i).activity = .awaitingKey) (k : Key) :
    Turn (channelOf s i) (channelOf (takeKey s i k) i) ∨ takeKey s i k = s := by
  have howed (h : indexFitsActivity (channelOf s i)) : (channelOf s i).owed = none :=
    owed_eq_none h (by simp [ha]) (by simp [ha])
  have begins (g : SiteChannel → SiteChannel) (s₁ : State)
      (hg : channelOf s₁ i = g (channelOf s i)) (hb : (g (channelOf s i)).bound = (channelOf s i).bound)
      (ho : (g (channelOf s i)).owed = (channelOf s i).owed) :
      Turn (channelOf s i) (channelOf (nextPosition s₁ i) i) := by
    obtain ⟨state, task, heq, hstate, htask⟩ := channelOf_nextPosition s₁ i
    rw [heq, hg]
    exact .goesOn (freeOfIndex_naming htask) hb (fun h => ho.trans (howed h)) fun _ => hstate
  unfold takeKey
  dsimp only
  split
  · exact .inr rfl
  next b _ =>
    refine .inl ?_
    split
    · exact begins (fun c => { c with target := some _, remaining := _ }) _
        (by rw [channelOf_modifyChannel, channelOf_modifyChannel]) rfl rfl
    · split
      · rw [spoilAt, reportOutcome, channelOf_modifyChannel, channelOf_modifyChannel, channelOf_modifyChannel]
        exact .goesOn (by simp [freeOfIndex]) rfl howed id
      · exact begins (fun c => { c with target := some _, remaining := _ }) _
          (by rw [channelOf_modifyChannel, channelOf_modifyChannel]) rfl rfl

end Responses

/-! ## The other sites -/

theorem sitesElse_refl (s : State) (i : Site) : sitesElse s s i := fun _ _ => rfl

theorem sitesElse_trans {s t u : State} {i : Site} (h : sitesElse s t i) (g : sitesElse t u i) : sitesElse s u i :=
  fun j hj => (g j hj).trans (h j hj)

theorem modifyChannel_sitesElse (s : State) (i : Site) (f : SiteChannel → SiteChannel) :
    sitesElse s (modifyChannel s i f) i := fun j hj => channelOf_modifyChannel_ne s i f j hj

theorem setActivity_sitesElse (s : State) (i : Site) (a : Activity) : sitesElse s (setActivity s i a) i :=
  modifyChannel_sitesElse s i _

theorem spoilAt_sitesElse (s : State) (i : Site) (o : Outcome) (cause : SpoilCause) (p : Option Nat) :
    sitesElse s (spoilAt s i o cause p) i :=
  sitesElse_trans (modifyChannel_sitesElse s i _) (modifyChannel_sitesElse _ i _)

theorem interruptByLink_sitesElse (s : State) (i : Site) : sitesElse s (interruptByLink s i) i :=
  sitesElse_trans (modifyChannel_sitesElse s i _) (dispose_sitesElse _ i)

theorem unexpectedStatus_sitesElse (s : State) (i : Site) : sitesElse s (unexpectedStatus s i) i := by
  unfold unexpectedStatus
  split
  · exact endDie_sitesElse s i _ _
  · exact interruptByLink_sitesElse s i

theorem identResponse_sitesElse (s : State) (i : Site) (data : List Byte) : sitesElse s (identResponse s i data) i := by
  unfold identResponse
  dsimp only
  repeat' split
  · exact endDie_sitesElse s i _ _
  · exact endDie_sitesElse s i _ _
  · exact modifyChannel_sitesElse s i _

theorem onlyReadback_sitesElse (s : State) (i : Site) (x : Image) : sitesElse s (onlyReadback s i x) i :=
  sitesElse_trans (modifyChannel_sitesElse s i _) (endDie_sitesElse _ i _ _)

theorem notListed_sitesElse (s : State) (i : Site) : sitesElse s (notListed s i) i :=
  sitesElse_trans (modifyChannel_sitesElse s i _) (endDie_sitesElse _ i _ _)

theorem evalReadback_sitesElse (s : State) (i : Site) (x : Image) : sitesElse s (evalReadback s i x) i := by
  unfold evalReadback
  dsimp only
  refine sitesElse_trans (modifyChannel_sitesElse s i fun c => { c with readback := x }) ?_
  split
  · exact setActivity_sitesElse _ i _
  · exact notListed_sitesElse _ i

theorem nextPosition_sitesElse (s : State) (i : Site) : sitesElse s (nextPosition s i) i := modifyChannel_sitesElse s i _

theorem takeKey_sitesElse (s : State) (i : Site) (k : Key) : sitesElse s (takeKey s i k) i := by
  unfold takeKey
  dsimp only
  split
  · exact sitesElse_refl s i
  next b _ =>
    refine sitesElse_trans (modifyChannel_sitesElse s i fun c =>
      { c with target := some (composeTarget (lotTag s.lot) b.index k) }) ?_
    split
    · exact sitesElse_trans (modifyChannel_sitesElse _ i _) (nextPosition_sitesElse _ i)
    · split
      · exact spoilAt_sitesElse _ i _ _ _
      · exact sitesElse_trans (modifyChannel_sitesElse _ i _) (nextPosition_sitesElse _ i)

theorem armResponse_sitesElse (s : State) (i : Site) (status : Byte) : sitesElse s (armResponse s i status) i := by
  unfold armResponse
  repeat' split
  · exact modifyChannel_sitesElse s i _
  · exact spoilAt_sitesElse s i _ _ _
  · exact interruptByLink_sitesElse s i

theorem verifyReadback_sitesElse (s : State) (i : Site) (word : Half) : sitesElse s (verifyReadback s i word) i := by
  unfold verifyReadback notBlown
  dsimp only
  repeat' split
  · exact sitesElse_refl s i
  · exact spoilAt_sitesElse s i _ _ _
  · exact modifyChannel_sitesElse s i _
  · exact spoilAt_sitesElse s i _ _ _
  · exact sitesElse_trans (modifyChannel_sitesElse s i _) (nextPosition_sitesElse _ i)

theorem lowReadback_sitesElse (s : State) (i : Site) (x : Image) : sitesElse s (lowReadback s i x) i := by
  unfold lowReadback
  split
  · exact spoilAt_sitesElse s i _ _ _
  · exact setActivity_sitesElse s i _

theorem highReadback_sitesElse (s : State) (i : Site) (x : Image) : sitesElse s (highReadback s i x) i := by
  unfold highReadback
  split
  · exact spoilAt_sitesElse s i _ _ _
  · exact modifyChannel_sitesElse s i _

theorem okResponse_sitesElse (s : State) (i : Site) (task : LinkTask) (data : List Byte) :
    sitesElse s (okResponse s i task data) i := by
  unfold okResponse
  split
  · exact setActivity_sitesElse s i _
  · dsimp only
    split
    · exact identResponse_sitesElse s i data
    · exact onlyReadback_sitesElse s i _
    · exact setActivity_sitesElse s i _
    · exact evalReadback_sitesElse s i _
    · exact verifyReadback_sitesElse s i _
    · exact lowReadback_sitesElse s i _
    · exact highReadback_sitesElse s i _
    · exact sitesElse_refl s i

theorem channelResponse_sitesElse (s : State) (i : Site) (status : Byte) (data : List Byte) :
    sitesElse s (channelResponse s i status data) i := by
  unfold channelResponse
  split
  · exact armResponse_sitesElse s i status
  · exact sendOwed_sitesElse s i
  · split
    · exact okResponse_sitesElse s i _ data
    · exact unexpectedStatus_sitesElse s i
  · exact sitesElse_refl s i

theorem takeReport_sitesElse (s : State) (i : Site) (r : Report) : sitesElse s (takeReport s i r) i := by
  unfold takeReport
  split
  · exact sitesElse_refl s i
  · exact fun j hj => finish_sitesElse _ i _ _ j hj

/-! ## The channel under the commands of the link -/

/-- The channel is as before in all that the laws of work and of holding read, or it was in an exchange and has its turn. -/
def Goes (c c' : SiteChannel) : Prop :=
  (c'.activity = c.activity ∧ c'.bound = c.bound ∧ c'.owed = c.owed ∧ c'.state = c.state ∧ c'.dieArmed = c.dieArmed) ∨
    (∃ task, c.activity = .exchanging task) ∧ Turn c c'

theorem goes_refl (c : SiteChannel) : Goes c c := .inl ⟨rfl, rfl, rfl, rfl, rfl⟩

/-- Only site `i` is touched, and its channel goes on. -/
def SiteGoes (s t : State) (i : Site) : Prop := sitesElse s t i ∧ Goes (channelOf s i) (channelOf t i)

/-- The ports do not matter to the channels. -/
theorem siteGoes_of_channels {s t : State} {i : Site} (h : ∀ j, channelOf t j = channelOf s j) : SiteGoes s t i :=
  ⟨fun j _ => h j, by rw [h i]; exact goes_refl _⟩

theorem linkFailure_goes (s : State) (i : Site) : SiteGoes s (linkFailure s i) i := by
  refine ⟨(linkFailure_else s i).1, ?_⟩
  rcases channelLinkFailure_turn (modifyPort s i idlePort) i with h | h
  · exact .inr h
  · rw [linkFailure, h]
    exact goes_refl _

theorem channelOf_repeatFrame (s : State) (i j : Site) : channelOf (repeatFrame s i) j = channelOf s j := by
  simp [channelOf]

theorem failSending_goes (s : State) (i : Site) (refused : Bool) : SiteGoes s (failSending s i refused) i := by
  refine ⟨(failSending_else s i refused).1, ?_⟩
  unfold failSending
  split
  · dsimp only
    split
    · rw [channelOf_repeatFrame, channelOf_modifyChannel]
      exact .inl ⟨rfl, rfl, rfl, rfl, rfl⟩
    · rw [channelOf_modifyPort, channelOf_modifyChannel]
      exact .inl ⟨rfl, rfl, rfl, rfl, rfl⟩
  · exact (linkFailure_goes s i).2

theorem handOn_goes (s : State) (i : Site) (status : Byte) (data : List Byte) : SiteGoes s (handOn s i status data) i := by
  refine ⟨channelResponse_sitesElse (modifyPort s i idlePort) i status data, ?_⟩
  rcases channelResponse_turn (modifyPort s i idlePort) i status data with h | h
  · exact .inr h
  · rw [handOn, h]
    exact goes_refl _

theorem goodResponse_goes (s : State) (i : Site) (r : LinkRequest) (status : Byte) (data : List Byte) :
    SiteGoes s (goodResponse s i r status data) i := by
  unfold goodResponse
  split
  · exact failSending_goes (countOn s i _) i true
  · split
    · dsimp only
      split
      · exact siteGoes_of_channels fun j => rfl
      · exact handOn_goes (modifyPort s i _) i status data
    · exact handOn_goes s i status data

theorem judgeResponse_goes (s : State) (i : Site) (r : LinkRequest) (bytes : List Byte) :
    SiteGoes s (judgeResponse s i r bytes) i := by
  unfold judgeResponse testResponse
  dsimp only
  split
  · exact siteGoes_of_channels fun j => rfl
  · split
    · exact siteGoes_of_channels fun j => rfl
    · split
      · exact failSending_goes (countOn s i _) i false
      · split
        · split
          · exact siteGoes_of_channels fun j => channelOf_repeatFrame (countOn s i _) i j
          · exact linkFailure_goes (countOn s i _) i
        · exact goodResponse_goes (countOn s i _) i r _ _

end Sys2Proof.Machine
end

section
/-!
The law of work (R15, R80): every step keeps that a channel works only in an ACTIVE touchdown, and beyond its lot check only in a
lot.
-/

namespace Sys2Proof.Machine

/-! ## The law at one site -/

/-- The law of work at one channel. -/
def siteWorkLaw (touchdown : TouchdownState) (lot : LotState) (c : SiteChannel) : Prop :=
  (works c → touchdown = .active ∧ c.state ≠ .done) ∧
    (works c → c.activity ≠ .starting ∨ c.bound ≠ none → lot ≠ .noLot) ∧ (c.activity = .starting → c.dieArmed = false)

theorem workLaw_iff {s : State} :
    workLaw s ↔ ∀ i, siteWorkLaw s.touchdown.state s.lot.state (channelOf s i) := Iff.rfl

theorem works_of_activity {c : SiteChannel} (hr : c.activity ≠ .resting) (hf : c.activity ≠ .finished) : works c :=
  .inl ⟨hr, hf⟩

/-- A channel that does not work meets the law in any touchdown and lot. -/
theorem siteWorkLaw_of_not_works {c : SiteChannel} (h : ¬ works c) (td : TouchdownState) (lot : LotState) :
    siteWorkLaw td lot c :=
  ⟨fun hw => absurd hw h, fun hw => absurd hw h, fun ha => absurd (works_of_activity (by simp [ha]) (by simp [ha])) h⟩

theorem not_works_of_finished {c : SiteChannel} (ha : c.activity = .finished) (hb : c.bound = none) : ¬ works c := by
  rintro (⟨-, hf⟩ | hb')
  · exact hf ha
  · exact hb' hb

theorem not_works_of_resting {c : SiteChannel} (ha : c.activity = .resting) (hb : c.bound = none) : ¬ works c := by
  rintro (⟨hr, -⟩ | hb')
  · exact hr ha
  · exact hb' hb

/-- Outside ACTIVE no channel works. -/
theorem not_works_of_not_active {s : State} (h : workLaw s) (ht : s.touchdown.state ≠ .active) (i : Site) :
    ¬ works (channelOf s i) := fun hw => ht ((h i).1 hw).1

theorem workLaw_of_none_works {s : State} (h : ∀ i, ¬ works (channelOf s i)) : workLaw s :=
  fun i => siteWorkLaw_of_not_works (h i) _ _

/-- A channel that holds an index is in a lot. -/
theorem bound_eq_none_of_noLot {s : State} (h : workLaw s) (hl : s.lot.state = .noLot) (i : Site) :
    (channelOf s i).bound = none := by
  by_contra hb
  exact (h i).2.1 (.inr hb) (.inr hb) hl

/-- A channel that works in an open lot meets the law after its turn. -/
theorem siteWorkLaw_of_turn {td : TouchdownState} {lot : LotState} {c c' : SiteChannel} (h : siteWorkLaw td lot c)
    (hw : works c) (hl : lot ≠ .noLot) (ht : Turn c c') : siteWorkLaw td lot c' := by
  obtain ⟨hactive, hstate⟩ := h.1 hw
  rcases ht.works hstate with ⟨ha, hb⟩ | ⟨hs, ha⟩
  · exact siteWorkLaw_of_not_works (not_works_of_finished ha hb) _ _
  · exact ⟨fun _ => ⟨hactive, hs⟩, fun _ _ => hl, fun hx => absurd hx ha⟩

/-- What the law reads of a channel. -/
theorem siteWorkLaw_congr {td : TouchdownState} {lot : LotState} {c c' : SiteChannel} (h : siteWorkLaw td lot c)
    (ha : c'.activity = c.activity) (hb : c'.bound = c.bound) (hs : c'.state = c.state) (hd : c'.dieArmed = c.dieArmed) :
    siteWorkLaw td lot c' := by
  simpa only [siteWorkLaw, works, ha, hb, hs, hd] using h

/-- Beyond the lot check a working channel is in a lot. -/
theorem lot_of_working {s : State} {i : Site} (h : workLaw s) (hr : (channelOf s i).activity ≠ .resting)
    (hf : (channelOf s i).activity ≠ .finished) (hs : (channelOf s i).activity ≠ .starting) : s.lot.state ≠ .noLot :=
  (h i).2.1 (works_of_activity hr hf) (.inl hs)

/-- A change of one site keeps the law when the site meets it. -/
theorem workLaw_of_site {s t : State} {i : Site} (h : workLaw s) (hel : sitesElse s t i)
    (htd : t.touchdown.state = s.touchdown.state) (hl : t.lot.state = s.lot.state)
    (hi : siteWorkLaw s.touchdown.state s.lot.state (channelOf t i)) : workLaw t := by
  rw [workLaw_iff, htd, hl]
  intro j
  by_cases hj : j = i
  · subst hj; exact hi
  · rw [hel j hj]; exact h j

/-- The law reads the channels, the touchdown state and the lot state. -/
theorem workLaw_congr {s t : State} (h : workLaw s) (hc : t.channels = s.channels)
    (htd : t.touchdown.state = s.touchdown.state) (hl : t.lot.state = s.lot.state) : workLaw t := by
  rw [workLaw_iff, htd, hl]
  intro i
  rw [channelOf, hc]
  exact h i

/-- The law after a turn of a channel that works beyond its lot check. -/
theorem workLaw_of_turn {s t : State} {i : Site} (h : workLaw s) (hel : sitesElse s t i)
    (htd : t.touchdown.state = s.touchdown.state) (hl : t.lot.state = s.lot.state)
    (hr : (channelOf s i).activity ≠ .resting) (hf : (channelOf s i).activity ≠ .finished)
    (hs : (channelOf s i).activity ≠ .starting) (ht : Turn (channelOf s i) (channelOf t i)) : workLaw t :=
  workLaw_of_site h hel htd hl (siteWorkLaw_of_turn (h i) (works_of_activity hr hf) (lot_of_working h hr hf hs) ht)

/-- A site that goes on keeps the law. -/
theorem workLaw_of_goes {s t : State} {i : Site} (h : workLaw s) (hg : SiteGoes s t i)
    (htd : t.touchdown.state = s.touchdown.state) (hl : t.lot.state = s.lot.state) : workLaw t := by
  obtain ⟨hel, ⟨ha, hb, -, hs, hd⟩ | ⟨⟨task, ha⟩, ht⟩⟩ := hg
  · exact workLaw_of_site h hel htd hl (siteWorkLaw_congr (h i) ha hb hs hd)
  · exact workLaw_of_turn h hel htd hl (by simp [ha]) (by simp [ha]) (by simp [ha]) ht

/-! ## The requests and the touchdown -/

/-- The channels after a map, as after a loop over all sites. -/
theorem channelOf_map (s : State) (g : SiteChannel → SiteChannel) (i : Site) :
    channelOf { s with channels := s.channels.map g } i = g (channelOf s i) := by
  simp [channelOf]

theorem sendInterruption_keeps (reason : InterruptReason) (c : SiteChannel) :
    (sendInterruption reason c).activity = c.activity ∧ (sendInterruption reason c).bound = c.bound ∧
      (sendInterruption reason c).owed = c.owed ∧ (sendInterruption reason c).state = c.state ∧
      (sendInterruption reason c).dieArmed = c.dieArmed := by
  unfold sendInterruption
  split <;> exact ⟨rfl, rfl, rfl, rfl, rfl⟩

theorem channelOf_interruptWorking (s : State) (reason : InterruptReason) (i : Site) :
    channelOf (interruptWorking s reason) i = sendInterruption reason (channelOf s i) := by
  rw [interruptWorking_eq, channelOf_map]

theorem interruptWorking_workLaw {s : State} (h : workLaw s) (reason : InterruptReason) :
    workLaw (interruptWorking s reason) := by
  rw [workLaw_iff]
  intro i
  obtain ⟨ha, hb, -, hs, hd⟩ := sendInterruption_keeps reason (channelOf s i)
  rw [channelOf_interruptWorking]
  simpa using siteWorkLaw_congr (h i) ha hb hs hd

theorem workLaw_keptByRequests : KeptByRequests workLaw where
  blind h hs := workLaw_congr hs h.channels (by rw [h.touchdown]) (by rw [h.lot])
  move {s t} h hs := by
    cases h with
    | opens => exact fun i => ⟨(hs i).1, fun _ _ => LotState.noConfusion, (hs i).2.2⟩
    | closes ht =>
      refine workLaw_of_none_works fun i => not_works_of_not_active hs ?_ i
      rcases ht with h | h <;> simp [h]
    | drains hl => exact fun i => ⟨(hs i).1, fun _ _ => LotState.noConfusion, (hs i).2.2⟩
    | @spoils n _ _ _ => exact workLaw_congr hs rfl rfl (spoilListed_moves s.lot n).state
    | aborts =>
      refine interruptWorking_workLaw ?_ _
      exact workLaw_congr hs rfl rfl rfl
    | same => exact hs
    | loads => exact workLaw_congr hs rfl rfl rfl
    | seals => exact workLaw_congr hs rfl rfl rfl
    | abortsAgain => exact workLaw_congr hs rfl rfl rfl
    | clears => exact workLaw_congr hs rfl rfl rfl

/-- What a rise makes of the touchdown state: it begins a touchdown in IDLE, and nothing else. -/
theorem takeRise_state (s : State) :
    (takeRise s).touchdown.state = if s.touchdown.state = .idle then .settling else s.touchdown.state := by
  unfold takeRise
  dsimp only
  split
  all_goals
    rename_i h
    simp [h, beginTouchdown]

theorem takeRise_channelOf (s : State) (i : Site) : channelOf (takeRise s) i = channelOf s i := by simp [channelOf]

theorem takeRise_workLaw {s : State} (h : workLaw s) : workLaw (takeRise s) := by
  by_cases hidle : s.touchdown.state = .idle
  · refine workLaw_of_none_works fun i => ?_
    rw [takeRise_channelOf]
    exact not_works_of_not_active h (by simp [hidle]) i
  · exact workLaw_congr h (by simp) (by rw [takeRise_state, if_neg hidle]) (by simp)

theorem setTouchdown_workLaw {s : State} {x : TouchdownController} (h : workLaw s) (hx : x.state = s.touchdown.state) :
    workLaw (setTouchdown s x) := workLaw_congr h rfl hx rfl

/-- The touchdown controller may do anything while no channel works. -/
theorem setTouchdown_workLaw_of_not_active {s : State} (x : TouchdownController) (h : workLaw s)
    (hs : s.touchdown.state ≠ .active) : workLaw (setTouchdown s x) :=
  workLaw_of_none_works fun i => by
    rw [channelOf_setTouchdown]
    exact not_works_of_not_active h hs i

theorem takeFall_workLaw {s : State} (h : workLaw s) : workLaw (takeFall s) := by
  have hlevel : workLaw (setTouchdown s { s.touchdown with contactLevel := false }) := setTouchdown_workLaw h rfl
  unfold takeFall
  dsimp only
  split
  · exact hlevel
  next hset =>
    exact workLaw_keptByRequests.closeIfDraining (setTouchdown_workLaw_of_not_active _ hlevel (by simp [hset])) (.inl rfl)
  · unfold fallInActive
    split
    · exact hlevel
    · split
      · exact hlevel
      · refine interruptWorking_workLaw ?_ _
        exact setTouchdown_workLaw hlevel rfl
  next hlift => exact setTouchdown_workLaw_of_not_active _ hlevel (by simp [hlift])

/-! ## The take of a frame -/

theorem startSite_sitesElse (entries : Site → PlanEntry) (late : SiteSet) (s : State) (i : Site) :
    sitesElse s (startSite entries late s i) i := by
  unfold startSite
  dsimp only
  refine sitesElse_trans (fun j hj => channelOf_setChannel_ne s i (startedChannel (channelOf s i).recordCoordinates
    (entries i) s.touchdown.waferId (decide (i.val < fittedCount s) && s.touchdown.latchedContact.getLsbD i.val)) j hj) ?_
  repeat' split
  · exact endDie_sitesElse _ i _ _
  · exact endDie_sitesElse _ i _ _
  · exact endDie_sitesElse _ i _ _
  · exact setActivity_sitesElse _ i _
  · exact lotCheck_sitesElse _ i

/-- A channel that is started holds no index and owes none; it has finished, waits for its lot check with its die not armed, or
names its IDENT in a lot. -/
structure Started (lot : LotState) (c : SiteChannel) : Prop where
  bound : c.bound = none
  owed : c.owed = none
  goes : c.activity = .finished ∨ c.activity = .starting ∧ c.dieArmed = false ∧ c.state = .probe ∨
    c.activity = .naming .ident ∧ lot ≠ .noLot ∧ c.state = .probe

theorem startSite_started (entries : Site → PlanEntry) (late : SiteSet) (s : State) (i : Site) :
    Started s.lot.state (channelOf (startSite entries late s i) i) := by
  have ended (x : State) (o : Outcome) : Started s.lot.state (channelOf (endDie x i o .none) i) := by
    rw [endDie, channelOf_finish]
    exact ⟨rfl, rfl, .inl rfl⟩
  unfold startSite
  dsimp only
  split
  · exact ended _ _
  · split
    · exact ended _ _
    · split
      · exact ended _ _
      · split
        · rw [channelOf_setActivity, channelOf_setChannel]
          exact ⟨rfl, rfl, .inr (.inl ⟨rfl, rfl, rfl⟩)⟩
        · unfold lotCheck
          split
          · exact ended _ _
          next hl =>
            rw [channelOf_modifyChannel, channelOf_setChannel]
            exact ⟨rfl, rfl, .inr (.inr ⟨rfl, hl, rfl⟩)⟩

theorem siteWorkLaw_of_started {lot : LotState} {c : SiteChannel} (h : Started lot c) : siteWorkLaw .active lot c := by
  obtain ⟨hb, -, ha | ⟨ha, hd, hs⟩ | ⟨ha, hl, hs⟩⟩ := h
  · exact siteWorkLaw_of_not_works (not_works_of_finished ha hb) _ _
  · refine ⟨fun _ => ⟨rfl, by simp [hs]⟩, fun _ hx => ?_, fun _ => hd⟩
    rcases hx with hx | hx
    · exact absurd ha hx
    · exact absurd hb hx
  · exact ⟨fun _ => ⟨rfl, by simp [hs]⟩, fun _ _ => hl, fun hx => by simp [ha] at hx⟩

theorem considerFrame_workLaw {s : State} (h : workLaw s) (hset : s.touchdown.state = .settling) (late : SiteSet) :
    workLaw (considerFrame s late) := by
  have hnone := not_works_of_not_active h (by simp [hset])
  unfold considerFrame
  dsimp only
  split
  · refine (forSites_inv (fun x => workLaw x ∧ x.touchdown.state = .active) (fun x i hx => ?_) _ _ ⟨?_, rfl⟩).1
    · obtain ⟨hwork, hactive⟩ := hx
      refine ⟨workLaw_of_site hwork (startSite_sitesElse _ late x i) (by simp) (by simp) ?_, by simpa using hactive⟩
      rw [hactive]
      exact siteWorkLaw_of_started (startSite_started _ late x i)
    · exact workLaw_of_none_works hnone
  · exact workLaw_keptByRequests.closeIfDraining (workLaw_of_none_works hnone) (.inr rfl)

theorem takeEntry_not_works {c : SiteChannel} (h : ¬ works c) : ¬ works (takeEntry c) := by
  unfold takeEntry
  split
  next ha =>
    refine not_works_of_resting rfl ?_
    by_contra hb
    exact h (.inr hb)
  · exact h

/-- With every channel in DONE none works. -/
theorem not_works_of_allDone {s : State} (h : workLaw s) (hd : allDone s = true) (i : Site) : ¬ works (channelOf s i) := by
  intro hw
  have hdone := List.all_eq_true.mp hd i (mem_allSites i)
  exact ((h i).1 hw).2 (of_decide_eq_true hdone)

theorem leaveActive_workLaw {s : State} (h : workLaw s) (hd : allDone s = true) : workLaw (leaveActive s) := by
  refine workLaw_of_none_works fun i => ?_
  rw [leaveActive_eq]
  show ¬ works (channelOf { s with channels := s.channels.map takeEntry } i)
  rw [channelOf_map]
  exact takeEntry_not_works (not_works_of_allDone h hd i)

/-! ## Slots -/

/-- The activities in which a channel has to do with a slot. -/
def slotActivities : List Activity := [.askingSlot, .awaitingSlot, .withdrawingSlot, .pulsing, .cutting]

/-- The channel is as before in all that the laws of work and of holding read, or goes from one activity of a slot to another. -/
def SlotStep (c c' : SiteChannel) : Prop :=
  c'.bound = c.bound ∧ c'.owed = c.owed ∧ c'.state = c.state ∧
    (c'.activity = c.activity ∨ c.activity ∈ slotActivities ∧ c'.activity ∈ slotActivities) ∧
    (c'.dieArmed = true → c.dieArmed = true)

theorem slotStep_refl (c : SiteChannel) : SlotStep c c := ⟨rfl, rfl, rfl, .inl rfl, id⟩

theorem SlotStep.trans {a b c : SiteChannel} (h : SlotStep a b) (g : SlotStep b c) : SlotStep a c := by
  obtain ⟨hb, ho, hs, ha, hd⟩ := h
  obtain ⟨gb, go, gs, ga, gd⟩ := g
  refine ⟨gb.trans hb, go.trans ho, gs.trans hs, ?_, fun h => hd (gd h)⟩
  rcases ga with ga | ⟨ga, ga'⟩
  · rcases ha with ha | ⟨ha, ha'⟩
    · exact .inl (ga.trans ha)
    · exact .inr ⟨ha, ga ▸ ha'⟩
  · rcases ha with ha | ⟨ha, -⟩
    · exact .inr ⟨ha ▸ ga, ga'⟩
    · exact .inr ⟨ha, ga'⟩

theorem slotActivities_working {a : Activity} (h : a ∈ slotActivities) :
    a ≠ .resting ∧ a ≠ .finished ∧ a ≠ .starting := by
  simp only [slotActivities, List.mem_cons, List.not_mem_nil, or_false] at h
  rcases h with rfl | rfl | rfl | rfl | rfl <;> simp

theorem siteWorkLaw_of_slotStep {td : TouchdownState} {lot : LotState} {c c' : SiteChannel} (h : siteWorkLaw td lot c)
    (hs : SlotStep c c') : siteWorkLaw td lot c' := by
  obtain ⟨hb, -, hst, ha, hd⟩ := hs
  rcases ha with ha | ⟨ha, ha'⟩
  · obtain ⟨h1, h2, h3⟩ := h
    simp only [works, ← ha, ← hb, ← hst] at h1 h2 h3
    exact ⟨h1, h2, fun hx => Bool.eq_false_iff.mpr fun hc => by rw [h3 hx] at hd; exact absurd (hd hc) (by simp)⟩
  · obtain ⟨hr, hf, hn⟩ := slotActivities_working ha
    obtain ⟨-, -, hn'⟩ := slotActivities_working ha'
    obtain ⟨hactive, hstate⟩ := h.1 (works_of_activity hr hf)
    exact ⟨fun _ => ⟨hactive, hst ▸ hstate⟩, fun _ _ => h.2.1 (works_of_activity hr hf) (.inl hn), fun hx => absurd hx hn'⟩

/-- Every channel of the state takes a slot step or none. -/
def SlotSteps (s t : State) : Prop := ∀ i, SlotStep (channelOf s i) (channelOf t i)

theorem countGrant_slotStep (c : SiteChannel) (attempt : Nat) : SlotStep c (countGrant c attempt) := by
  refine ⟨rfl, rfl, rfl, ?_, id⟩
  unfold countGrant
  dsimp only
  split
  next h => exact .inr ⟨by simp [h, slotActivities], by simp [slotActivities]⟩
  next h => exact .inr ⟨by simp [h, slotActivities], by simp [slotActivities]⟩
  next h => exact .inr ⟨by simp [h, slotActivities], by simp [slotActivities]⟩
  · exact .inl rfl

theorem modifyChannel_slotSteps {s : State} {i : Site} {f : SiteChannel → SiteChannel}
    (h : SlotStep (channelOf s i) (f (channelOf s i))) : SlotSteps s (modifyChannel s i f) := by
  intro j
  by_cases hj : j = i
  · subst hj
    rw [channelOf_modifyChannel]
    exact h
  · rw [channelOf_modifyChannel_ne _ _ _ _ hj]
    exact slotStep_refl _

theorem grant_slotSteps (s : State) (i : Site) (attempt : Nat) : SlotSteps s (grant s i attempt) :=
  modifyChannel_slotSteps (s := setRail s _) (countGrant_slotStep _ attempt)

theorem scan_slotSteps (s : State) : SlotSteps s (scan s) := by
  refine forSites_inv (SlotSteps s) (fun x i hx => ?_) _ _ fun i => slotStep_refl _
  unfold scanSite
  split
  · split
    · exact fun j => (hx j).trans (grant_slotSteps x i _ j)
    · exact hx
  · exact hx

theorem decideHold_slotSteps (s : State) : SlotSteps s (decideHold s) := by
  unfold decideHold
  dsimp only
  repeat' split
  · exact fun i => slotStep_refl _
  · exact fun i => slotStep_refl _
  · exact scan_slotSteps (setRail s { s.rail with hold := false })
  · exact fun i => slotStep_refl _
  · exact fun i => slotStep_refl _

theorem stopPulse_slotSteps (s : State) (i : Site) : SlotSteps s (stopPulse s i) :=
  modifyChannel_slotSteps (s := setRail s (freeSlot s.rail i)) (i := i) (f := fun c => { c with dieArmed := false })
    ⟨rfl, rfl, rfl, .inl rfl, fun h => by simp at h⟩

theorem workLaw_of_slotSteps {s t : State} (h : workLaw s) (hs : SlotSteps s t)
    (htd : t.touchdown.state = s.touchdown.state) (hl : t.lot.state = s.lot.state) : workLaw t := by
  rw [workLaw_iff, htd, hl]
  exact fun i => siteWorkLaw_of_slotStep (h i) (hs i)

/-! ## The law under every effect -/

/-- A channel still before its lot check ends when it is interrupted: it holds no index, and its die is not armed. -/
theorem dispose_of_unbound {s : State} {i : Site} (hb : (channelOf s i).bound = none)
    (hd : (channelOf s i).dieArmed = false) :
    (channelOf (dispose s i) i).activity = .finished ∧ (channelOf (dispose s i) i).bound = none := by
  have howed : (disposing (channelOf s i)).owed = none := reportDecision_eq_none.mpr hb
  rw [dispose_eq, if_neg (by simp [hd]), channelOf_sendOwed, channelOf_modifyChannel, howed]
  exact ⟨rfl, rfl⟩

/-- The law after a channel that works has disposed of its index. -/
theorem dispose_workLaw {s : State} {i : Site} (h : workLaw s) (hr : (channelOf s i).activity ≠ .resting)
    (hf : (channelOf s i).activity ≠ .finished) : workLaw (dispose s i) := by
  have hw := works_of_activity hr hf
  refine workLaw_of_site h (dispose_sitesElse s i) (by simp) (by simp) ?_
  by_cases hx : (channelOf s i).activity ≠ .starting ∨ (channelOf s i).bound ≠ none
  · exact siteWorkLaw_of_turn (h i) hw ((h i).2.1 hw hx) (dispose_turn s i)
  · rw [not_or, not_not, not_not] at hx
    obtain ⟨ha, hb⟩ := dispose_of_unbound hx.2 ((h i).2.2 hx.1)
    exact siteWorkLaw_of_not_works (not_works_of_finished ha hb) _ _

theorem takeInterruption_workLaw {s : State} (h : workLaw s) (i : Site) (reason : InterruptReason) :
    workLaw (takeInterruption s i reason) :=
  workLaw_of_site h (modifyChannel_sitesElse s i _) rfl rfl (by
    rw [takeInterruption, channelOf_modifyChannel]
    exact siteWorkLaw_congr (h i) rfl rfl rfl rfl)

theorem takeInterruption_activity (s : State) (i : Site) (reason : InterruptReason) :
    (channelOf (takeInterruption s i reason) i).activity = (channelOf s i).activity := by
  rw [takeInterruption, channelOf_modifyChannel]

/-- A working channel that goes to another working activity beyond the lot check, all else as before. -/
theorem setActivity_workLaw {s : State} {i : Site} {a : Activity} (h : workLaw s)
    (hr : (channelOf s i).activity ≠ .resting) (hf : (channelOf s i).activity ≠ .finished)
    (hs : (channelOf s i).activity ≠ .starting) (ha : a ≠ .starting) : workLaw (setActivity s i a) := by
  have hw := works_of_activity hr hf
  refine workLaw_of_site h (setActivity_sitesElse s i a) rfl rfl ?_
  rw [channelOf_setActivity]
  exact ⟨fun _ => (h i).1 hw, fun _ _ => (h i).2.1 hw (.inl hs), fun hx => absurd hx ha⟩

theorem takeExchange_workLaw {s : State} (h : workLaw s) (i : Site) : workLaw (takeExchange s i) := by
  unfold takeExchange
  split
  next task ha =>
    split
    · have := setActivity_workLaw (i := i) (a := .exchanging task) h (by simp [ha]) (by simp [ha]) (by simp [ha]) (by simp)
      exact workLaw_congr this rfl rfl rfl
    · exact h
  · exact h

theorem lotCheck_workLaw {s : State} {i : Site} (h : workLaw s) (ha : (channelOf s i).activity = .starting) :
    workLaw (lotCheck s i) := by
  refine workLaw_of_site h (lotCheck_sitesElse s i) (by simp) (by simp) ?_
  have hw : works (channelOf s i) := works_of_activity (by simp [ha]) (by simp [ha])
  unfold lotCheck
  split
  · rw [endDie, channelOf_finish]
    exact siteWorkLaw_of_not_works (not_works_of_finished rfl rfl) _ _
  next hl =>
    rw [channelOf_modifyChannel]
    exact ⟨fun _ => (h i).1 hw, fun _ _ => hl, fun hx => by simp at hx⟩

/-- A granted claim gives a working channel its index, and it asks for its key. -/
theorem claimed_workLaw {s t : State} {i : Site} {l : LotController} {g : SiteChannel → SiteChannel} (h : workLaw s)
    (hr : (channelOf s i).activity ≠ .resting) (hf : (channelOf s i).activity ≠ .finished)
    (hl : s.lot.state ≠ .noLot) (hl' : l.state = s.lot.state) (ha : (g (channelOf s i)).activity = .askingKey)
    (hs : (g (channelOf s i)).state = (channelOf s i).state)
    (ht : t = modifyChannel (setLot s l) i g ∨ t = dispose (modifyChannel (setLot s l) i g) i) : workLaw t := by
  have hclaimed : workLaw (modifyChannel (setLot s l) i g) := by
    refine workLaw_of_site h (modifyChannel_sitesElse (setLot s l) i g) rfl hl' ?_
    rw [channelOf_modifyChannel, channelOf_setLot]
    obtain ⟨hactive, hstate⟩ := (h i).1 (works_of_activity hr hf)
    exact ⟨fun _ => ⟨hactive, hs ▸ hstate⟩, fun _ _ => hl, fun hx => by simp [ha] at hx⟩
  have hask : (channelOf (modifyChannel (setLot s l) i g) i).activity = .askingKey := by
    rw [channelOf_modifyChannel, channelOf_setLot, ha]
  rcases ht with rfl | rfl
  · exact hclaimed
  · exact dispose_workLaw hclaimed (by rw [hask]; simp) (by rw [hask]; simp)

/-- The entry into DONE that is taken leaves the channel at rest. -/
theorem siteDone_workLaw {s : State} {i : Site} (h : workLaw s) (ha : (channelOf s i).activity = .finished) :
    workLaw (setActivity s i .resting) := by
  refine workLaw_of_site h (setActivity_sitesElse s i _) rfl rfl ?_
  rw [channelOf_setActivity]
  have hsame : works { channelOf s i with activity := .resting } → works (channelOf s i) := by
    rintro (⟨hr, -⟩ | hb)
    · exact absurd rfl hr
    · exact .inr hb
  exact ⟨fun hw => (h i).1 (hsame hw), fun hw _ => (h i).2.1 (hsame hw) (.inl (by simp [ha])), fun hx => by simp at hx⟩

/-- Every effect keeps the law of work. -/
theorem effect_workLaw {c : Instr} {s t : State} (hs : workLaw s) (h : Effect c s t) : workLaw t := by
  have K := workLaw_keptByRequests
  have keep {t : State} (hc : t.channels = s.channels) (htd : t.touchdown = s.touchdown) (hl : t.lot = s.lot) : workLaw t :=
    workLaw_congr hs hc (by rw [htd]) (by rw [hl])
  have reset {t : State} (hc : t.channels = Vector.replicate 16 SiteChannel.afterPowerOn) : workLaw t :=
    workLaw_of_none_works fun i => by
      have : channelOf t i = SiteChannel.afterPowerOn := by simp [channelOf, hc]
      rw [this]
      exact not_works_of_resting rfl rfl
  cases h with
  | powerOnReset => exact reset rfl
  | startupEnd => exact K.examineIfPending (by rw [startedUp_eq]; exact workLaw_congr hs rfl rfl rfl)
  | softReset order => exact reset (by simp [softlyReset, resetStepThree])
  | softResetEnd => exact K.examineIfPending (by rw [softResetEnded_eq]; exact workLaw_congr hs rfl rfl rfl)
  | notify => exact K.notifyUnit hs
  | request => exact K.reexamine (K.carryOut hs _)
  | rise => exact takeRise_workLaw (s := { s with contactLine := true }) hs
  | fall => exact takeFall_workLaw (s := { s with contactLine := false }) hs
  | settleExpiry m hset =>
    have hlatched : workLaw (latch s m.contactSense) := workLaw_congr hs rfl rfl rfl
    exact considerFrame_workLaw (K.notifyUnit hlatched) (by rw [notifyUnit_touchdown_state]; exact hset) _
  | siteDone _ ha => exact siteDone_workLaw hs ha
  | frameDone _ ha _ hd =>
    exact K.finishFrame (leaveActive_workLaw (siteDone_workLaw hs ha) hd) fun {x} hx => workLaw_congr (s := x) hx rfl rfl rfl
  | interruptionIgnored i =>
    refine workLaw_of_site hs (modifyChannel_sitesElse s i _) rfl rfl ?_
    rw [channelOf_modifyChannel]
    exact siteWorkLaw_congr (hs i) rfl rfl rfl rfl
  | @interruptionDisposes i reason _ ha =>
    refine dispose_workLaw (takeInterruption_workLaw hs i reason) ?_ ?_ <;> rw [takeInterruption_activity] <;>
      rcases ha with ha | ⟨task, ha⟩ | ha | ha <;> simp [ha]
  | @interruptionAbandons i reason _ ha =>
    obtain ⟨task, ha⟩ := ha
    have hact : (channelOf (abandon (takeInterruption s i reason) i) i).activity = .exchanging task :=
      (takeInterruption_activity s i reason).trans ha
    refine dispose_workLaw (workLaw_congr (takeInterruption_workLaw hs i reason) rfl rfl rfl) ?_ ?_ <;>
      simp [hact]
  | @interruptionAwaitsClaim i reason => exact takeInterruption_workLaw hs i reason
  | @interruptionWithdraws i reason _ a ha =>
    have hact := takeInterruption_activity s i reason
    simp only [List.mem_cons, Prod.mk.injEq, List.not_mem_nil, or_false] at ha
    refine setActivity_workLaw (takeInterruption_workLaw hs i reason) ?_ ?_ ?_ ?_ <;>
      rcases ha with ⟨h1, rfl⟩ | ⟨h1, rfl⟩ | ⟨h1, rfl⟩ <;> simp [hact, h1]
  | freshGranted ha hl _ ht =>
    obtain ⟨u, rfl, ht⟩ := ht
    exact claimed_workLaw hs (by simp [ha]) (by simp [ha]) hl (afterFreshClaim_moves _).state (by rfl) (by rfl) ht
  | resumeGranted ha hl _ ht =>
    obtain ⟨u, rfl, ht⟩ := ht
    refine claimed_workLaw hs ?_ ?_ hl ?_ ?_ ?_ ht
    · simp [ha]
    · simp [ha]
    · rfl
    · rfl
    · rfl
  | @freshRefused i _ ha _ _ ht =>
    obtain rfl | ⟨o, rfl⟩ := ht
    · exact dispose_workLaw hs (by simp [ha]) (by simp [ha])
    · refine workLaw_of_site hs (endDie_sitesElse s i _ _) (by simp) (by simp) ?_
      rw [endDie, channelOf_finish]
      exact siteWorkLaw_of_not_works (not_works_of_finished rfl rfl) _ _
  | @resumeRefused i _ ha _ _ ht =>
    obtain rfl | rfl | ⟨g, rfl⟩ := ht
    · exact dispose_workLaw hs (by simp [ha]) (by simp [ha])
    · refine workLaw_of_site hs (notListed_sitesElse s i) (by simp) (by simp) ?_
      rw [notListed, endDie, channelOf_finish]
      exact siteWorkLaw_of_not_works (not_works_of_finished rfl rfl) _ _
    · refine workLaw_of_site hs (sitesElse_trans (modifyChannel_sitesElse s i _) (endDie_sitesElse _ i _ _)) (by simp)
        (by simp) ?_
      rw [endDie, channelOf_finish]
      exact siteWorkLaw_of_not_works (not_works_of_finished rfl rfl) _ _
  | @report _ i r _ _ ha =>
    refine workLaw_of_site hs (takeReport_sitesElse s i r) (by simp) (takeReport_lot s i r).state ?_
    unfold takeReport
    split
    · exact hs i
    · rw [channelOf_finish]
      exact siteWorkLaw_of_not_works (not_works_of_finished rfl rfl) _ _
  | @keyRequest i b _ ha =>
    exact setActivity_workLaw (s := setDerivation s (queueKey s i b)) hs (by simp [ha]) (by simp [ha]) (by simp [ha]) (by simp)
  | @keyDelivered i k _ ha =>
    have hcomputed : workLaw (setDerivation s (beginNextKey s.lot s.derivation)) := hs
    rcases takeKey_turn (s := setDerivation s (beginNextKey s.lot s.derivation)) ha k with ht | ht
    · exact workLaw_of_turn hcomputed (takeKey_sitesElse _ i k) (by simp) (by simp) (by simp [ha]) (by simp [ha])
        (by simp [ha]) ht
    · rw [ht]
      exact hcomputed
  | @keyWithdrawal i _ ha => exact dispose_workLaw (s := setDerivation s _) hs (by simp [ha]) (by simp [ha])
  | slotGranted => exact workLaw_of_slotSteps hs (grant_slotSteps s _ _) (by simp) (by simp)
  | @slotAwaited i _ ha => exact setActivity_workLaw (s := setRail s _) hs (by simp [ha]) (by simp [ha]) (by simp [ha]) (by simp)
  | @slotWithdrawal i _ ha => exact dispose_workLaw (s := setRail s _) hs (by simp [ha]) (by simp [ha])
  | @pulseEnd i =>
    have hstopped : workLaw (stopPulse s i) := workLaw_of_slotSteps hs (stopPulse_slotSteps s i) (by simp) (by simp)
    refine workLaw_of_slotSteps ?_ (scan_slotSteps _) (by simp) (by simp)
    split
    next ha =>
      have hact : (channelOf (stopPulse s i) i).activity = .pulsing := by
        simp [stopPulse, channelOf_setMirror, ha]
      exact setActivity_workLaw hstopped (by simp [hact]) (by simp [hact]) (by simp [hact]) (by simp)
    · exact hstopped
  | @pulseCut i _ ha =>
    have hsteps : SlotSteps s (scan (stopPulse s i)) := fun j => (stopPulse_slotSteps s i j).trans (scan_slotSteps _ j)
    have hscanned : workLaw (scan (stopPulse s i)) := workLaw_of_slotSteps hs hsteps (by simp) (by simp)
    have hact : (channelOf (scan (stopPulse s i)) i).activity ∈ slotActivities := by
      obtain ⟨-, -, -, h | ⟨-, h⟩, -⟩ := hsteps i
      · rw [h, ha]; simp [slotActivities]
      · exact h
    obtain ⟨hr, hf, -⟩ := slotActivities_working hact
    exact dispose_workLaw hscanned hr hf
  | cutFindsNone ha => exact dispose_workLaw hs (by simp [ha]) (by simp [ha])
  | readingDecides v =>
    exact workLaw_of_slotSteps (s := { s with reading := limitReading v.output }) hs (decideHold_slotSteps _) (by simp) (by simp)
  | readingFrees v =>
    exact workLaw_of_slotSteps (s := { s with reading := limitReading v.output }) hs (decideHold_slotSteps _) (by simp) (by simp)
  | exchangeRequest => exact takeExchange_workLaw hs _
  | exchangeStarts ha => exact takeExchange_workLaw (lotCheck_workLaw hs ha) _
  | response bytes => exact workLaw_of_goes hs (judgeResponse_goes s _ _ bytes) (by simp) (by simp)
  | timeout i => exact workLaw_of_goes hs (failSending_goes (countOn s i _) i false) (by simp) (by simp)
  | _ => exact keep (by simp [clearAttention]) (by simp [clearAttention]) (by simp [clearAttention])

end Sys2Proof.Machine
end

section
/-!
The law of holding (R8, R15): the resume list, the fresh indices that sites hold, and fresh-bound agree. `Holding l f` is the law
for a lot controller `l` when site `i` holds the fresh index `f i`; each claim, report and closure keeps it.
-/

namespace Sys2Proof.Machine

/-! ## Counting sites -/

/-- Two predicates that differ at one place of a list differ by one in their counts. -/
theorem countP_eq_succ {α : Type} {l : List α} (hl : l.Nodup) {a : α} (ha : a ∈ l) {p q : α → Bool} (hp : p a = true)
    (hq : q a = false) (h : ∀ b, b ≠ a → p b = q b) : l.countP p = l.countP q + 1 := by
  induction l with
  | nil => simp at ha
  | cons b l ih =>
    obtain ⟨hb, hl⟩ := List.nodup_cons.mp hl
    rw [List.countP_cons, List.countP_cons]
    by_cases hba : b = a
    · subst hba
      have hrest : l.countP p = l.countP q :=
        List.countP_congr fun c hc => by rw [h c fun e => hb (e ▸ hc)]
      simp [hp, hq, hrest]
    · have hmem : a ∈ l := (List.mem_cons.mp ha).resolve_left fun e => hba e.symm
      rw [ih hl hmem, h b hba]
      omega

/-- How many sites have something. -/
def siteCount {α : Type} (f : Site → Option α) : Nat := Config.allSites.countP fun i => (f i).isSome

theorem siteCount_update_some {α : Type} {f : Site → Option α} {i : Site} (h : f i = none) (a : α) :
    siteCount (Function.update f i (some a)) = siteCount f + 1 :=
  countP_eq_succ allSites_nodup (mem_allSites i) (by simp) (by simp [h]) fun j hj => by simp [hj]

theorem siteCount_update_none {α : Type} {f : Site → Option α} {i : Site} (h : f i ≠ none) :
    siteCount f = siteCount (Function.update f i none) + 1 :=
  countP_eq_succ allSites_nodup (mem_allSites i) (Option.isSome_iff_ne_none.mpr h) (by simp) fun j hj => by simp [hj]

theorem siteCount_of_none {α : Type} {f : Site → Option α} (h : ∀ i, f i = none) : siteCount f = 0 := by
  rw [siteCount, List.countP_eq_zero]
  exact fun i _ => by simp [h i]

theorem siteCount_pos {α : Type} {f : Site → Option α} {i : Site} (h : f i ≠ none) : 0 < siteCount f := by
  rw [siteCount_update_none h]
  omega

/-! ## The law for a lot controller -/

/-- The law of holding when site `i` holds the fresh index `f i`. -/
structure Holding (l : LotController) (f : Site → Option Nat) : Prop where
  nodup : (l.resumeList.map (·.index)).Nodup
  below : ∀ e ∈ l.resumeList, e.index < l.nextIndex
  fresh : ∀ (i : Site), ∀ n ∈ f i,
    n < l.nextIndex ∧ (∀ e ∈ l.resumeList, e.index ≠ n) ∧ ∀ j, j ≠ i → f j ≠ some n
  count : l.freshBound = siteCount f

/-- The fresh indices that the sites of a state hold. -/
def freshIndices (s : State) (i : Site) : Option Nat := freshIndex (channelOf s i)

theorem holdingLaw_iff {s : State} :
    holdingLaw s ↔ (∀ i, indexFitsActivity (channelOf s i)) ∧ Holding s.lot (freshIndices s) :=
  ⟨fun ⟨hfit, hnodup, hbelow, hfresh, hcount⟩ => ⟨hfit, hnodup, hbelow, hfresh, hcount⟩,
    fun ⟨hfit, hnodup, hbelow, hfresh, hcount⟩ => ⟨hfit, hnodup, hbelow, hfresh, hcount⟩⟩

/-- The fresh index of a channel that holds `b`. -/
theorem freshIndex_of_bound {c : SiteChannel} {b : BoundIndex} (h : c.bound = some b) :
    freshIndex c = if b.kind = .fresh then some b.index else none := by
  obtain ⟨n, k⟩ := b
  unfold freshIndex
  rw [h]
  cases k <;> rfl

theorem freshIndex_of_unbound {c : SiteChannel} (h : c.bound = none) : freshIndex c = none := by
  unfold freshIndex
  rw [h]

theorem freshIndex_congr {c c' : SiteChannel} (h : c'.bound = c.bound) : freshIndex c' = freshIndex c := by
  unfold freshIndex
  rw [h]

namespace Holding

variable {l l' : LotController} {f : Site → Option Nat}

/-- With no fresh index held and an empty list nothing is left to agree. -/
theorem of_none (hlist : l.resumeList = []) (hf : ∀ i, f i = none) (hb : l.freshBound = 0) : Holding l f where
  nodup := by simp [hlist]
  below := by simp [hlist]
  fresh i n hn := by rw [hf i] at hn; cases hn
  count := hb.trans (siteCount_of_none hf).symm

/-- The list may lose entries, and its entries all but their indices. -/
theorem sublist (h : Holding l f) (hlist : (l'.resumeList.map (·.index)).Sublist (l.resumeList.map (·.index)))
    (hn : l'.nextIndex = l.nextIndex) (hb : l'.freshBound = l.freshBound) : Holding l' f := by
  have hmem : ∀ e ∈ l'.resumeList, ∃ e' ∈ l.resumeList, e'.index = e.index := fun e he =>
    List.mem_map.mp (hlist.subset (List.mem_map_of_mem he))
  refine ⟨h.nodup.sublist hlist, fun e he => ?_, fun i n hi => ?_, hb.trans h.count⟩
  · obtain ⟨e', he', heq⟩ := hmem e he
    rw [hn, ← heq]
    exact h.below e' he'
  · obtain ⟨hlt, hlisted, helse⟩ := h.fresh i n hi
    refine ⟨hn ▸ hlt, fun e he heq => ?_, helse⟩
    obtain ⟨e', he', heq'⟩ := hmem e he
    exact hlisted e' he' (heq'.trans heq)

/-- A granted claim allocates next_index to a site (R6). -/
theorem grant (h : Holding l f) {i : Site} (hi : f i = none) :
    Holding { l with nextIndex := l.nextIndex + 1, freshBound := l.freshBound + 1 }
      (Function.update f i (some l.nextIndex)) := by
  refine ⟨h.nodup, fun e he => Nat.lt_succ_of_lt (h.below e he), fun j n hj => ?_, ?_⟩
  · by_cases hji : j = i
    · subst hji
      rw [Function.update_self] at hj
      cases hj
      refine ⟨Nat.lt_succ_self _, fun e he => (h.below e he).ne, fun k hk hx => ?_⟩
      rw [Function.update_of_ne hk] at hx
      exact absurd (h.fresh k _ hx).1 (Nat.lt_irrefl _)
    · rw [Function.update_of_ne hji] at hj
      obtain ⟨hlt, hlisted, helse⟩ := h.fresh j n hj
      refine ⟨Nat.lt_succ_of_lt hlt, hlisted, fun k hk hx => ?_⟩
      by_cases hki : k = i
      · subst hki
        rw [Function.update_self] at hx
        cases hx
        exact absurd hlt (Nat.lt_irrefl _)
      · rw [Function.update_of_ne hki] at hx
        exact helse k hk hx
  · rw [siteCount_update_some hi, ← h.count]

/-- A site gives up its fresh index, which leaves fresh-bound (R12, R13, R22). -/
theorem giveUp (h : Holding l f) {i : Site} (hi : f i ≠ none) (hlist : l'.resumeList = l.resumeList)
    (hn : l'.nextIndex = l.nextIndex) (hb : l'.freshBound = l.freshBound - 1) : Holding l' (Function.update f i none) := by
  refine ⟨by rw [hlist]; exact h.nodup, by rw [hlist, hn]; exact h.below, fun j n hj => ?_, ?_⟩
  · by_cases hji : j = i
    · subst hji
      simp at hj
    · rw [Function.update_of_ne hji] at hj
      obtain ⟨hlt, hlisted, helse⟩ := h.fresh j n hj
      refine ⟨hn ▸ hlt, by rw [hlist]; exact hlisted, fun k hk hx => ?_⟩
      by_cases hki : k = i
      · subst hki
        simp at hx
      · rw [Function.update_of_ne hki] at hx
        exact helse k hk hx
  · rw [hb, h.count, siteCount_update_none hi, Nat.add_sub_cancel]

/-- A site puts its fresh index on the list (R9). -/
theorem hold (h : Holding l f) {i : Site} {e : ResumeEntry} (hi : f i = some e.index) :
    Holding { l with freshBound := l.freshBound - 1, resumeList := l.resumeList ++ [e] } (Function.update f i none) := by
  obtain ⟨hlt, hlisted, helse⟩ := h.fresh i _ hi
  have hgiven : Holding { l with freshBound := l.freshBound - 1 } (Function.update f i none) :=
    h.giveUp (by simp [hi]) rfl rfl rfl
  refine ⟨?_, fun x hx => ?_, fun j n hj => ?_, hgiven.count⟩
  · simp only [List.map_append, List.map_singleton]
    refine List.nodup_append'.mpr ⟨h.nodup, List.nodup_singleton _, ?_⟩
    intro n hn hn'
    rw [List.mem_singleton] at hn'
    obtain ⟨x, hx, heq⟩ := List.mem_map.mp hn
    exact hlisted x hx (heq.trans hn')
  · rcases List.mem_append.mp hx with hx | hx
    · exact h.below x hx
    · rw [List.mem_singleton] at hx
      exact hx ▸ hlt
  · obtain ⟨hlt', hlisted', helse'⟩ := hgiven.fresh j n hj
    refine ⟨hlt', fun x hx => ?_, helse'⟩
    rcases List.mem_append.mp hx with hx | hx
    · exact hlisted' x hx
    · rw [List.mem_singleton] at hx
      subst hx
      by_cases hji : j = i
      · subst hji
        simp at hj
      · rw [Function.update_of_ne hji] at hj
        exact fun heq => helse j hji (heq ▸ hj)

theorem freshBound_ne_zero (h : Holding l f) {i : Site} (hi : f i ≠ none) : l.freshBound ≠ 0 := by
  rw [h.count]
  exact (siteCount_pos hi).ne'

theorem removeEntry (h : Holding l f) (n : Nat) : Holding (removeEntry l n) f :=
  h.sublist (List.eraseP_sublist.map _) rfl rfl

theorem updateEntry (h : Holding l f) (n : Nat) {g : ResumeEntry → ResumeEntry} (hg : ∀ e, (g e).index = e.index) :
    Holding (updateEntry l n g) f := by
  refine h.sublist ?_ rfl rfl
  have : ∀ e : ResumeEntry, (if e.index = n then g e else e).index = e.index := by
    intro e
    split
    · exact hg e
    · rfl
  simp [Machine.updateEntry, Function.comp_def, this]

theorem spoilListed (h : Holding l f) (n : Nat) : Holding (spoilListed l n) f := by
  unfold Machine.spoilListed
  split
  · exact h
  · exact (h.removeEntry n).sublist (.refl _) rfl rfl

theorem spoilFresh (h : Holding l f) {i : Site} (hi : f i ≠ none) : Holding (spoilFresh l) (Function.update f i none) := by
  unfold Machine.spoilFresh
  rw [if_neg (h.freshBound_ne_zero hi)]
  exact h.giveUp hi rfl rfl rfl

theorem afterRelease (h : Holding l f) (n : Nat) : Holding (afterRelease l n) f := by
  unfold Machine.afterRelease
  split
  · exact h.spoilListed n
  · exact h.updateEntry n fun _ => rfl

/-- A report that suits the index settles it (R9, R11, R12, R13). -/
theorem report (h : Holding l f) {i : Site} {b : BoundIndex} (hi : f i = if b.kind = .fresh then some b.index else none)
    {r : Report} (hhold : r = .hold → b.kind = .fresh) (hrelease : r = .release → b.kind = .resumed) (w : Word) (x y : Half) :
    Holding (afterReport l b w x y r) (Function.update f i none) := by
  obtain ⟨n, k⟩ := b
  cases k with
  | fresh =>
    have hi : f i = some n := hi
    have hne : f i ≠ none := by simp [hi]
    have hb := h.freshBound_ne_zero hne
    cases r with
    | commit =>
      rw [afterReport, afterCommit]
      dsimp only
      rw [if_neg hb]
      exact h.giveUp hne rfl rfl rfl
    | spoil cause => exact h.spoilFresh hne
    | hold =>
      rw [afterReport, afterHold, if_neg hb]
      split
      · exact h.hold (e := heldEntry n w x y) hi
      · exact h.spoilFresh hne
    | release => cases hrelease rfl
  | resumed =>
    have hi : f i = none := hi
    have hf : Function.update f i none = f := by rw [← hi, Function.update_eq_self]
    rw [hf]
    cases r with
    | commit =>
      rw [afterReport, afterCommit]
      dsimp only
      split
      · exact h
      · exact (h.removeEntry n).sublist (.refl _) rfl rfl
    | spoil cause => exact h.spoilListed n
    | hold => cases hhold rfl
    | release => exact h.afterRelease n

/-- The closure empties the list (R20, R22). -/
theorem emptied (h : Holding l f) (hlist : l'.resumeList = []) (hn : l'.nextIndex = l.nextIndex)
    (hb : l'.freshBound = l.freshBound) : Holding l' f := h.sublist (by simp [hlist]) hn hb

theorem giveUpByReset (h : Holding l f) {i : Site} (hi : f i ≠ none) (n : Nat) :
    Holding (spoilFreshByReset l n) (Function.update f i none) := by
  unfold spoilFreshByReset
  rw [if_neg (h.freshBound_ne_zero hi)]
  exact (h.spoilFresh hi).sublist (.refl _) rfl rfl

end Holding

/-! ## The law in a state -/

/-- The law reads the channels and the lot. -/
theorem holdingLaw_congr {s t : State} (h : holdingLaw s) (hc : t.channels = s.channels) (hl : t.lot = s.lot) :
    holdingLaw t := by
  have hch : ∀ i, channelOf t i = channelOf s i := fun i => by rw [channelOf, hc]; rfl
  simpa only [holdingLaw, hch, hl] using h

/-- The fresh indices after a change of one site. -/
theorem freshIndices_of_site {s t : State} {i : Site} (hel : sitesElse s t i) :
    freshIndices t = Function.update (freshIndices s) i (freshIndex (channelOf t i)) := by
  funext j
  by_cases hj : j = i
  · subst hj; simp [freshIndices]
  · simp [freshIndices, hj, hel j hj]

/-- A change of one site and of the lot that fits keeps the law. -/
theorem holdingLaw_of_site {s t : State} {i : Site} (h : holdingLaw s) (hel : sitesElse s t i)
    (hfit : indexFitsActivity (channelOf t i))
    (hl : Holding t.lot (Function.update (freshIndices s) i (freshIndex (channelOf t i)))) : holdingLaw t := by
  rw [holdingLaw_iff] at h ⊢
  refine ⟨fun j => ?_, by rw [freshIndices_of_site hel]; exact hl⟩
  by_cases hj : j = i
  · subst hj; exact hfit
  · rw [hel j hj]; exact h.1 j

/-- A change of one site that keeps its index keeps the law. -/
theorem holdingLaw_of_keeps {s t : State} {i : Site} (h : holdingLaw s) (hel : sitesElse s t i) (hl : t.lot = s.lot)
    (hb : (channelOf t i).bound = (channelOf s i).bound) (hfit : indexFitsActivity (channelOf t i)) : holdingLaw t := by
  refine holdingLaw_of_site h hel hfit ?_
  rw [hl, freshIndex_congr hb]
  have : Function.update (freshIndices s) i (freshIndex (channelOf s i)) = freshIndices s := Function.update_eq_self _ _
  rw [this]
  exact (holdingLaw_iff.mp h).2

theorem holdingLaw_of_turn {s t : State} {i : Site} (h : holdingLaw s) (hel : sitesElse s t i) (hl : t.lot = s.lot)
    (ht : Turn (channelOf s i) (channelOf t i)) : holdingLaw t :=
  holdingLaw_of_keeps h hel hl (ht.bound (h.1 i)) (ht.fits (h.1 i))

/-- What the fit of index and activity reads of a channel. -/
theorem indexFits_congr {c c' : SiteChannel} (h : indexFitsActivity c) (ha : c'.activity = c.activity)
    (hb : c'.bound = c.bound) (ho : c'.owed = c.owed) : indexFitsActivity c' := by
  simpa only [indexFitsActivity, ha, hb, ho] using h

theorem holdingLaw_of_goes {s t : State} {i : Site} (h : holdingLaw s) (hg : SiteGoes s t i) (hl : t.lot = s.lot) :
    holdingLaw t := by
  obtain ⟨hel, ⟨ha, hb, ho, -, -⟩ | ⟨-, ht⟩⟩ := hg
  · exact holdingLaw_of_keeps h hel hl hb (indexFits_congr (h.1 i) ha hb ho)
  · exact holdingLaw_of_turn h hel hl ht

theorem slotActivities_free {a : Activity} (h : a ∈ slotActivities) : freeOfIndex a := by
  simp only [slotActivities, List.mem_cons, List.not_mem_nil, or_false] at h
  rcases h with rfl | rfl | rfl | rfl | rfl <;> simp [freeOfIndex]

theorem owed_of_free {c : SiteChannel} (h : indexFitsActivity c) (ha : freeOfIndex c.activity) : c.owed = none := by
  obtain ⟨-, -, -, -, -, htask⟩ := ha
  exact owed_eq_none h (fun e => (htask .disarm (.inl e)).2 rfl) fun e => (htask .disarm (.inr e)).2 rfl

theorem indexFits_of_slotStep {c c' : SiteChannel} (h : indexFitsActivity c) (hs : SlotStep c c') : indexFitsActivity c' := by
  obtain ⟨hb, ho, -, ha | ⟨ha, ha'⟩, -⟩ := hs
  · exact indexFits_congr h ha hb ho
  · exact indexFits_of_free (slotActivities_free ha') (ho.trans (owed_of_free h (slotActivities_free ha)))

theorem holdingLaw_of_slotSteps {s t : State} (h : holdingLaw s) (hs : SlotSteps s t) (hl : t.lot = s.lot) :
    holdingLaw t := by
  rw [holdingLaw_iff] at h ⊢
  have hf : freshIndices t = freshIndices s := funext fun i => freshIndex_congr (hs i).1
  rw [hl, hf]
  exact ⟨fun i => indexFits_of_slotStep (h.1 i) (hs i), h.2⟩

/-! ## The requests and the touchdown -/

theorem interruptWorking_holdingLaw {s : State} (h : holdingLaw s) (reason : InterruptReason) :
    holdingLaw (interruptWorking s reason) := by
  have hkeeps (i : Site) := sendInterruption_keeps reason (channelOf s i)
  rw [holdingLaw_iff] at h ⊢
  have hf : freshIndices (interruptWorking s reason) = freshIndices s := funext fun i => by
    obtain ⟨-, hb, -⟩ := hkeeps i
    rw [freshIndices, channelOf_interruptWorking]
    exact freshIndex_congr hb
  refine ⟨fun i => ?_, by rw [hf]; simpa using h.2⟩
  obtain ⟨ha, hb, ho, -⟩ := hkeeps i
  rw [channelOf_interruptWorking]
  exact indexFits_congr (h.1 i) ha hb ho

/-- A move of the lot that keeps the law of the lot controller. -/
theorem setLot_holdingLaw {s : State} {l : LotController} (h : holdingLaw s)
    (hl : Holding s.lot (freshIndices s) → Holding l (freshIndices s)) : holdingLaw (setLot s l) := by
  rw [holdingLaw_iff] at h ⊢
  exact ⟨h.1, hl h.2⟩

/-- Where no channel works none holds an index. -/
theorem unbound_of_not_works {c : SiteChannel} (h : ¬ works c) : c.bound = none := by
  by_contra hb
  exact h (.inr hb)

/-- The law of work and the law of holding. -/
def workAndHolding (s : State) : Prop := workLaw s ∧ holdingLaw s

theorem workAndHolding_keptByRequests : KeptByRequests workAndHolding where
  blind h hs := ⟨workLaw_keptByRequests.blind h hs.1, holdingLaw_congr hs.2 h.channels h.lot⟩
  move {s t} h hs := by
    refine ⟨workLaw_keptByRequests.move h hs.1, ?_⟩
    obtain ⟨hwork, hs⟩ := hs
    cases h with
    | same => exact hs
    | opens total _ hl =>
      have hopened : holdingLaw (setLot s (openedLot s)) :=
        setLot_holdingLaw hs fun _ =>
          .of_none rfl (fun i => freshIndex_of_unbound (bound_eq_none_of_noLot hwork hl i)) rfl
      exact holdingLaw_congr hopened rfl rfl
    | closes => exact setLot_holdingLaw hs fun h => h.emptied rfl rfl rfl
    | drains => exact setLot_holdingLaw hs fun h => h.sublist (.refl _) rfl rfl
    | @spoils n => exact setLot_holdingLaw hs fun h => h.spoilListed n
    | loads => exact holdingLaw_congr hs rfl rfl
    | seals => exact holdingLaw_congr hs rfl rfl
    | abortsAgain => exact holdingLaw_congr hs rfl rfl
    | aborts =>
      refine interruptWorking_holdingLaw ?_ _
      exact holdingLaw_congr hs rfl rfl
    | clears => exact holdingLaw_congr hs rfl rfl

theorem takeFall_holdingLaw {s : State} (hw : workLaw s) (h : holdingLaw s) : holdingLaw (takeFall s) := by
  have hlevel : holdingLaw (setTouchdown s { s.touchdown with contactLevel := false }) := holdingLaw_congr h rfl rfl
  unfold takeFall
  dsimp only
  split
  · exact hlevel
  next hset =>
    refine (workAndHolding_keptByRequests.closeIfDraining ?_ ?_).2
    · exact ⟨setTouchdown_workLaw_of_not_active _ (setTouchdown_workLaw hw rfl) (by simp [hset]),
        holdingLaw_congr hlevel rfl rfl⟩
    · exact .inl rfl
  · unfold fallInActive
    split
    · exact hlevel
    · split
      · exact hlevel
      · refine interruptWorking_holdingLaw ?_ _
        exact holdingLaw_congr hlevel rfl rfl
  · exact holdingLaw_congr hlevel rfl rfl

/-- The take of a frame starts channels that hold nothing, in the place of channels that hold nothing. -/
theorem considerFrame_holdingLaw {s : State} (hw : workLaw s) (h : holdingLaw s) (hset : s.touchdown.state = .settling)
    (late : SiteSet) : holdingLaw (considerFrame s late) := by
  have hnone := not_works_of_not_active hw (by simp [hset])
  unfold considerFrame
  dsimp only
  split
  · refine (forSites_inv (fun x => holdingLaw x ∧ ∀ j, (channelOf x j).bound = none) (fun x i hx => ?_) _ _ ⟨?_, ?_⟩).1
    · obtain ⟨hhold, hunbound⟩ := hx
      have hel := startSite_sitesElse (readPlanEntry s s.touchdown.takePointer) late x i
      obtain ⟨hb, ho, -⟩ := startSite_started (readPlanEntry s s.touchdown.takePointer) late x i
      refine ⟨holdingLaw_of_keeps hhold hel (by simp) (hb.trans (hunbound i).symm) (indexFits_of_unbound hb ho), fun j => ?_⟩
      by_cases hj : j = i
      · subst hj; exact hb
      · rw [hel j hj]; exact hunbound j
    · exact holdingLaw_congr h (by simp) (by simp)
    · exact fun j => unbound_of_not_works (hnone j)
  · refine (workAndHolding_keptByRequests.closeIfDraining ?_ ?_).2
    · exact ⟨workLaw_of_none_works hnone, holdingLaw_congr h rfl rfl⟩
    · exact .inr rfl

theorem takeEntry_keeps (c : SiteChannel) :
    (takeEntry c).bound = c.bound ∧ (takeEntry c).owed = c.owed ∧
      (indexFitsActivity c → indexFitsActivity (takeEntry c)) := by
  unfold takeEntry
  split
  next ha =>
    refine ⟨rfl, rfl, fun h => ?_⟩
    have hfree : freeOfIndex c.activity := by simp [ha, freeOfIndex]
    exact indexFits_of_free (by simp [freeOfIndex]) (owed_of_free (c := c) h hfree)
  · exact ⟨rfl, rfl, id⟩

theorem leaveActive_holdingLaw {s : State} (h : holdingLaw s) : holdingLaw (leaveActive s) := by
  have hch (i : Site) : channelOf (leaveActive s) i = takeEntry (channelOf s i) := by
    rw [leaveActive_eq]
    exact channelOf_map s takeEntry i
  rw [holdingLaw_iff] at h ⊢
  have hf : freshIndices (leaveActive s) = freshIndices s := funext fun i => by
    rw [freshIndices, hch]
    exact freshIndex_congr (takeEntry_keeps _).1
  refine ⟨fun i => ?_, by rw [hf]; simpa using h.2⟩
  rw [hch]
  exact (takeEntry_keeps _).2.2 (h.1 i)

/-! ## The claims and reports at a soft reset (R22) -/

/-- What a soft reset needs of a channel in order to take its claim or report. -/
def claimSuits (c : SiteChannel) : Prop :=
  (c.activity = .claimingFresh ∨ c.activity = .claimingResume → c.bound = none) ∧
    ∀ b ∈ c.bound,
      (c.activity = .reporting .hold → b.kind = .fresh) ∧ (c.activity = .reporting .release → b.kind = .resumed)

theorem claimSuits_of_fits {c : SiteChannel} (h : indexFitsActivity c) : claimSuits c := by
  obtain ⟨hnone, -, -, hkind⟩ := h
  refine ⟨fun ha => hnone (.inr (ha.imp_right .inl)), fun b hb => ?_⟩
  obtain ⟨hhold, hrelease⟩ := hkind b hb
  exact ⟨fun e => hhold (.inl e), fun e => hrelease (.inl e)⟩

theorem claimSuits_of_resting {c : SiteChannel} (h : c.activity = .resting) : claimSuits c :=
  ⟨by simp [h], by simp [h]⟩

/-- The law of holding in the middle of a soft reset. -/
def HoldingInReset (s : State) : Prop := (∀ i, claimSuits (channelOf s i)) ∧ Holding s.lot (freshIndices s)

theorem holdingInReset_of_site {s t : State} {i : Site} (h : HoldingInReset s) (hel : sitesElse s t i)
    (hc : claimSuits (channelOf t i))
    (hl : Holding t.lot (Function.update (freshIndices s) i (freshIndex (channelOf t i)))) : HoldingInReset t := by
  refine ⟨fun j => ?_, by rw [freshIndices_of_site hel]; exact hl⟩
  by_cases hj : j = i
  · subst hj; exact hc
  · rw [hel j hj]; exact h.1 j

theorem takeInFlight_sitesElse (s : State) (i : Site) : sitesElse s (takeInFlight s i) i := by
  have hrest := setActivity_sitesElse s i .resting
  unfold takeInFlight
  dsimp only
  split
  · split
    · exact sitesElse_trans hrest (modifyChannel_sitesElse (setLot _ _) i _)
    · exact hrest
  · exact hrest
  · split
    · exact hrest
    · exact sitesElse_trans hrest (modifyChannel_sitesElse (setLot _ _) i _)
  · exact hrest

/-- A refused claim changes nothing (R6). -/
theorem afterFreshClaim_of_refused {l : LotController} (h : ∀ n, freshAnswer l ≠ .granted n) : afterFreshClaim l = l := by
  unfold afterFreshClaim
  split
  · exact absurd ‹_› (h _)
  · rfl

/-- A granted claim gives next_index (R6). -/
theorem afterFreshClaim_of_granted {l : LotController} {n : Nat} (h : freshAnswer l = .granted n) :
    n = l.nextIndex ∧ afterFreshClaim l = { l with nextIndex := l.nextIndex + 1, freshBound := l.freshBound + 1 } := by
  have hn : n = l.nextIndex := by
    unfold freshAnswer at h
    split at h
    · cases h
    · split at h
      · cases h
      · cases h; rfl
  refine ⟨hn, ?_⟩
  unfold afterFreshClaim
  rw [h]

theorem afterResumeClaim_holding {l : LotController} {f : Site → Option Nat} (h : Holding l f) (n : Nat) (w : Word)
    (x y : Half) (i : Site) : Holding (afterResumeClaim l n w x y i) f := by
  unfold afterResumeClaim
  split
  · exact h.updateEntry n fun _ => rfl
  · exact h

theorem takeInFlight_holding {s : State} (h : HoldingInReset s) (i : Site) : HoldingInReset (takeInFlight s i) := by
  have hel := takeInFlight_sitesElse s i
  obtain ⟨hnone, hkind⟩ := h.1 i
  have same : Function.update (freshIndices s) i (freshIndex (channelOf s i)) = freshIndices s := Function.update_eq_self _ _
  have rested : HoldingInReset (setActivity s i .resting) := by
    refine holdingInReset_of_site h (setActivity_sitesElse s i _) ?_ ?_
    · rw [channelOf_setActivity]
      exact claimSuits_of_resting rfl
    · have hfresh : freshIndex (channelOf (setActivity s i .resting) i) = freshIndex (channelOf s i) :=
        freshIndex_congr (by rw [channelOf_setActivity])
      rw [hfresh, same]
      exact h.2
  unfold takeInFlight at hel ⊢
  dsimp only at hel ⊢
  split at hel
  next ha =>
    have hi : freshIndices s i = none := freshIndex_of_unbound (hnone (.inl ha))
    split at hel
    next n hn =>
      obtain ⟨rfl, heq⟩ := afterFreshClaim_of_granted hn
      refine holdingInReset_of_site h hel ?_ ?_
      · rw [channelOf_modifyChannel, channelOf_setLot, channelOf_setActivity]
        exact claimSuits_of_resting rfl
      · rw [channelOf_modifyChannel, channelOf_setLot, channelOf_setActivity]
        simpa [freshIndex, modifyChannel, heq] using h.2.grant hi
    next hn =>
      rw [afterFreshClaim_of_refused fun n => hn n]
      exact rested
  next =>
    refine ⟨rested.1, ?_⟩
    exact afterResumeClaim_holding rested.2 _ _ _ _ i
  next r ha =>
    split at hel
    · exact rested
    next b hb =>
      obtain ⟨hhold, hrelease⟩ := hkind b hb
      refine holdingInReset_of_site h hel ?_ ?_
      · rw [channelOf_modifyChannel, channelOf_setLot, channelOf_setActivity]
        exact claimSuits_of_resting rfl
      · rw [channelOf_modifyChannel, channelOf_setLot, channelOf_setActivity]
        have := h.2.report (i := i) (freshIndex_of_bound hb) (r := r) (fun e => hhold (e ▸ ha)) (fun e => hrelease (e ▸ ha))
          (channelOf s i).waferId (channelOf s i).dieX (channelOf s i).dieY
        simpa [freshIndex, modifyChannel] using this
  next => exact rested

theorem giveUpFresh_sitesElse (s : State) (i : Site) : sitesElse s (giveUpFresh s i) i := by
  unfold giveUpFresh
  split
  · split
    · exact modifyChannel_sitesElse (setLot _ _) i _
    · exact sitesElse_refl s i
  · exact sitesElse_refl s i

theorem freshIndex_giveUpFresh (s : State) (i : Site) : freshIndex (channelOf (giveUpFresh s i) i) = none := by
  unfold giveUpFresh
  split
  next b hb =>
    split
    next hk => rw [channelOf_modifyChannel]; exact freshIndex_of_unbound rfl
    next hk => rw [freshIndex_of_bound hb, hk]; rfl
  next hb => exact freshIndex_of_unbound hb

theorem giveUpFresh_holding {s : State} (h : HoldingInReset s) (i : Site) : HoldingInReset (giveUpFresh s i) := by
  have hel := giveUpFresh_sitesElse s i
  have hnone := freshIndex_giveUpFresh s i
  have hgiven : (giveUpFresh s i).lot = s.lot ∧ giveUpFresh s i = s ∨
      ∃ n, freshIndices s i = some n ∧ (giveUpFresh s i).lot = spoilFreshByReset s.lot n ∧
        (channelOf (giveUpFresh s i) i).bound = none := by
    unfold giveUpFresh
    split
    next b hb =>
      split
      next hk =>
        refine .inr ⟨b.index, by rw [freshIndices, freshIndex_of_bound hb, hk]; rfl, rfl, ?_⟩
        rw [channelOf_modifyChannel]
      next => exact .inl ⟨rfl, rfl⟩
    next => exact .inl ⟨rfl, rfl⟩
  rcases hgiven with ⟨-, heq⟩ | ⟨n, hn, hlot, hbound⟩
  · rw [heq]; exact h
  · refine holdingInReset_of_site h hel ⟨fun _ => hbound, by simp [hbound]⟩ ?_
    rw [hlot, hnone]
    exact h.2.giveUpByReset (by simp [hn]) n

/-- After the loop no site of the list holds a fresh index. -/
theorem freshIndices_giveUpFresh {l : List Site} {s : State} {j : Site} (h : j ∈ l ∨ freshIndices s j = none) :
    freshIndices (forSites l giveUpFresh s) j = none := by
  induction l generalizing s with
  | nil => exact h.resolve_left (by simp)
  | cons i l ih =>
    refine ih ?_
    by_cases hj : j = i
    · subst hj
      exact .inr (freshIndex_giveUpFresh s j)
    · rcases h with h | h
      · exact .inl ((List.mem_cons.mp h).resolve_left hj)
      · exact .inr (by rw [freshIndices, giveUpFresh_sitesElse s i j hj]; exact h)

/-- The claims and reports in flight keep the law, and with them every fresh index is given up. -/
theorem resetClosure_freshBound {s : State} (h : HoldingInReset s) (order : List Site) (hl : s.lot.state ≠ .noLot) :
    (resetClosure s order).lot.freshBound = 0 := by
  have htaken : HoldingInReset (forSites (order ++ Config.allSites) takeInFlight s) :=
    forSites_inv HoldingInReset (fun x i hx => takeInFlight_holding hx i) _ _ h
  obtain ⟨w, hw⟩ : ∃ w, w = forSites (order ++ Config.allSites) takeInFlight s := ⟨_, rfl⟩
  rw [← hw] at htaken
  have hlisted : HoldingInReset (setLot w (spoilList w.lot)) := ⟨htaken.1, htaken.2.emptied rfl rfl rfl⟩
  have hgiven : HoldingInReset (forSites Config.allSites giveUpFresh (setLot w (spoilList w.lot))) :=
    forSites_inv HoldingInReset (fun x i hx => giveUpFresh_holding hx i) _ _ hlisted
  have hcount := hgiven.2.count
  rw [siteCount_of_none fun i => freshIndices_giveUpFresh (.inl (mem_allSites i))] at hcount
  unfold resetClosure
  rw [if_neg hl]
  simpa [hw] using hcount

/-! ## The law under every effect -/

theorem holdingLaw_of_reset {t : State} (hc : t.channels = Vector.replicate 16 SiteChannel.afterPowerOn)
    (hl : Holding t.lot fun _ => none) : holdingLaw t := by
  have hch (i : Site) : channelOf t i = SiteChannel.afterPowerOn := by simp [channelOf, hc]
  rw [holdingLaw_iff]
  refine ⟨fun i => ?_, ?_⟩
  · rw [hch]
    exact indexFits_of_unbound rfl rfl
  · have : freshIndices t = fun _ => none := funext fun i => by rw [freshIndices, hch]; rfl
    rw [this]
    exact hl

theorem softlyReset_holdingLaw {s : State} (hw : workLaw s) (h : holdingLaw s) (order : List Site) :
    holdingLaw (softlyReset order s) := by
  refine holdingLaw_of_reset (by simp [softlyReset, resetStepThree]) ?_
  rw [holdingLaw_iff] at h
  by_cases hl : s.lot.state = .noLot
  · have hlot : (softlyReset order s).lot = s.lot := by simp [softlyReset, resetClosure, hl]
    have hnone : freshIndices s = fun _ => none :=
      funext fun i => freshIndex_of_unbound (bound_eq_none_of_noLot hw hl i)
    rw [hlot, ← hnone]
    exact h.2
  · have hch : ∀ i, channelOf (resetStepOne s) i = channelOf s i := fun i => by simp [channelOf]
    have hin : HoldingInReset (resetStepOne s) := by
      refine ⟨fun i => by rw [hch]; exact claimSuits_of_fits (h.1 i), ?_⟩
      have : freshIndices (resetStepOne s) = freshIndices s := funext fun i => by rw [freshIndices, hch]; rfl
      rw [this]
      simpa using h.2
    have hlist : (softlyReset order s).lot.resumeList = [] := by
      have hlot : (softlyReset order s).lot = (resetClosure (resetStepOne s) order).lot := by simp [softlyReset]
      rw [hlot, resetClosure, if_neg (by simpa using hl)]
      simp [forSites_keeps (fun s => s.lot.resumeList) giveUpFresh_resumeList, spoilList]
    refine .of_none hlist (fun _ => rfl) ?_
    have := resetClosure_freshBound hin order (by simpa using hl)
    simpa [softlyReset] using this

/-- A claim that is granted, and disposed of when the channel was interrupted meanwhile. -/
theorem claimed_holdingLaw {s t : State} {i : Site} {l : LotController} {g : SiteChannel → SiteChannel} (h : holdingLaw s)
    (hb : beforeIndex (channelOf s i).activity) (ha : (g (channelOf s i)).activity = .askingKey)
    (ho : (g (channelOf s i)).owed = (channelOf s i).owed)
    (hl : Holding l (Function.update (freshIndices s) i (freshIndex (g (channelOf s i)))))
    (ht : t = modifyChannel (setLot s l) i g ∨ t = dispose (modifyChannel (setLot s l) i g) i) : holdingLaw t := by
  obtain ⟨hn, he⟩ := beforeIndex_ne_disarm hb
  have hclaimed : holdingLaw (modifyChannel (setLot s l) i g) := by
    refine holdingLaw_of_site h (modifyChannel_sitesElse (setLot s l) i g) ?_ ?_
    · rw [channelOf_modifyChannel, channelOf_setLot]
      exact indexFits_of_free (by simp [ha, freeOfIndex]) (ho.trans (owed_eq_none (h.1 i) hn he))
    · rw [channelOf_modifyChannel, channelOf_setLot]
      exact hl
  rcases ht with rfl | rfl
  · exact hclaimed
  · exact holdingLaw_of_turn hclaimed (dispose_sitesElse _ i) (by simp) (dispose_turn _ i)

theorem takeReport_holdingLaw {s : State} {i : Site} {r : Report} (h : holdingLaw s)
    (ha : (channelOf s i).activity = .reporting r) : holdingLaw (takeReport s i r) := by
  have hel := takeReport_sitesElse s i r
  obtain ⟨-, hkind⟩ := claimSuits_of_fits (h.1 i)
  unfold takeReport at hel ⊢
  split at hel
  · exact h
  next b hb =>
    obtain ⟨hhold, hrelease⟩ := hkind b hb
    refine holdingLaw_of_site h hel ?_ ?_
    · rw [channelOf_finish]
      exact indexFits_of_unbound rfl rfl
    · rw [channelOf_finish]
      simpa [freshIndex] using (holdingLaw_iff.mp h).2.report (i := i) (freshIndex_of_bound hb) (r := r)
        (fun e => hhold (e ▸ ha)) (fun e => hrelease (e ▸ ha)) _ _ _

/-- The exchange that a channel names goes to its port, and fits the index as the naming did. -/
theorem takeExchange_holdingLaw {s : State} (h : holdingLaw s) (i : Site) : holdingLaw (takeExchange s i) := by
  have hel := (takeExchange_else s i).1
  by_cases hn : ∃ task, (channelOf s i).activity = .naming task
  · obtain ⟨task, ha⟩ := hn
    by_cases hp : (portOf s i).phase = .idle
    · obtain ⟨hch, -⟩ := takeExchange_sends ha hp
      refine holdingLaw_of_keeps h hel (by simp) (by rw [hch]) ?_
      rw [hch]
      obtain ⟨hnone, howed, honly, hkind⟩ := h.1 i
      have hdisarm : task = .disarm ↔ (channelOf s i).activity = .naming .disarm := by simp [ha]
      refine ⟨fun hx => ?_, fun hx => ?_, fun hx => ?_, fun b hb => ?_⟩
      · rcases hx with hx | hx | hx | ⟨task', hmem, hx | hx⟩ <;> cases hx
        exact hnone (.inr (.inr (.inr ⟨task, hmem, .inl ha⟩)))
      · rcases hx with hx | hx <;> cases hx
        exact howed (.inl ha)
      · rcases honly hx with hx | hx
        · rw [ha] at hx; cases hx; exact .inr rfl
        · rw [ha] at hx; cases hx
      · obtain ⟨hhold, hrelease⟩ := hkind b hb
        exact ⟨fun hx => hhold (.inr (hx.resolve_left (by simp))), fun hx => hrelease (.inr (hx.resolve_left (by simp)))⟩
    · have : takeExchange s i = s := by simp [takeExchange, ha, hp]
      rw [this]; exact h
  · rw [takeExchange_of_not_naming fun task ha => hn ⟨task, ha⟩]
    exact h

theorem lotCheck_holdingLaw {s : State} {i : Site} (h : holdingLaw s) (ha : (channelOf s i).activity = .starting) :
    holdingLaw (lotCheck s i) := by
  refine holdingLaw_of_turn h (lotCheck_sitesElse s i) (by simp) ?_
  have hbefore : beforeIndex (channelOf s i).activity := .inl ha
  obtain ⟨hn, he⟩ := beforeIndex_ne_disarm hbefore
  unfold lotCheck
  split
  · exact endDie_turn _ _ fun h => h.1 hbefore
  · rw [channelOf_modifyChannel]
    exact .scans (by simp) rfl (fun h => h.1 hbefore) (fun h => owed_eq_none (c := channelOf s i) h hn he) id

theorem takeInterruption_holdingLaw {s : State} (h : holdingLaw s) (i : Site) (reason : InterruptReason) :
    holdingLaw (takeInterruption s i reason) :=
  holdingLaw_of_keeps h (modifyChannel_sitesElse s i _) rfl (by rw [takeInterruption, channelOf_modifyChannel])
    (by rw [takeInterruption, channelOf_modifyChannel]; exact indexFits_congr (h.1 i) rfl rfl rfl)

/-- A channel goes from one activity that asks nothing of its index to another. -/
theorem setActivity_holdingLaw {s : State} {i : Site} {a : Activity} (h : holdingLaw s)
    (hf : freeOfIndex (channelOf s i).activity) (ha : freeOfIndex a) : holdingLaw (setActivity s i a) := by
  refine holdingLaw_of_keeps h (setActivity_sitesElse s i a) rfl (by rw [channelOf_setActivity]) ?_
  rw [channelOf_setActivity]
  exact indexFits_of_free ha (owed_of_free (c := channelOf s i) (h.1 i) hf)

theorem siteDone_holdingLaw {s : State} {i : Site} (h : holdingLaw s) (ha : (channelOf s i).activity = .finished) :
    holdingLaw (setActivity s i .resting) := setActivity_holdingLaw h (by simp [ha, freeOfIndex]) (by simp [freeOfIndex])

/-- Every effect keeps the law of holding. -/
theorem effect_holdingLaw {c : Instr} {s t : State} (hw : workLaw s) (hs : holdingLaw s) (h : Effect c s t) :
    holdingLaw t := by
  have K := workAndHolding_keptByRequests
  have keep {t : State} (hc : t.channels = s.channels) (hl : t.lot = s.lot) : holdingLaw t := holdingLaw_congr hs hc hl
  have disposed {x : State} {i : Site} (hx : holdingLaw x) : holdingLaw (dispose x i) :=
    holdingLaw_of_turn hx (dispose_sitesElse x i) (by simp) (dispose_turn x i)
  cases h with
  | powerOnReset => exact holdingLaw_of_reset rfl (.of_none rfl (fun _ => rfl) rfl)
  | startupEnd =>
    refine (K.examineIfPending ?_).2
    rw [startedUp_eq]
    exact ⟨workLaw_congr hw rfl rfl rfl, keep rfl rfl⟩
  | softReset order => exact softlyReset_holdingLaw hw hs order
  | softResetEnd =>
    refine (K.examineIfPending ?_).2
    rw [softResetEnded_eq]
    exact ⟨workLaw_congr hw rfl rfl rfl, keep rfl rfl⟩
  | notify => exact (K.notifyUnit ⟨hw, hs⟩).2
  | request => exact (K.reexamine (K.carryOut ⟨hw, hs⟩ _)).2
  | fall => exact takeFall_holdingLaw (s := { s with contactLine := false }) hw hs
  | settleExpiry m hset =>
    have hlatched : workAndHolding (latch s m.contactSense) := ⟨workLaw_congr hw rfl rfl rfl, keep rfl rfl⟩
    obtain ⟨hw', hs'⟩ := K.notifyUnit hlatched
    exact considerFrame_holdingLaw hw' hs' (by rw [notifyUnit_touchdown_state]; exact hset) _
  | siteDone _ ha => exact siteDone_holdingLaw hs ha
  | frameDone _ ha _ hd =>
    have hleft := leaveActive_workLaw (siteDone_workLaw hw ha) hd
    exact (K.finishFrame ⟨hleft, leaveActive_holdingLaw (siteDone_holdingLaw hs ha)⟩ fun {x} hx =>
      ⟨workLaw_congr (s := x) hx.1 rfl rfl rfl, holdingLaw_congr (s := x) hx.2 rfl rfl⟩).2
  | interruptionIgnored i =>
    refine holdingLaw_of_keeps hs (modifyChannel_sitesElse s i _) rfl (by rw [channelOf_modifyChannel]) ?_
    rw [channelOf_modifyChannel]
    exact indexFits_congr (hs.1 i) rfl rfl rfl
  | @interruptionDisposes i reason => exact disposed (takeInterruption_holdingLaw hs i reason)
  | @interruptionAbandons i reason =>
    exact disposed (holdingLaw_congr (takeInterruption_holdingLaw hs i reason) rfl rfl)
  | @interruptionAwaitsClaim i reason => exact takeInterruption_holdingLaw hs i reason
  | @interruptionWithdraws i reason _ a ha =>
    simp only [List.mem_cons, Prod.mk.injEq, List.not_mem_nil, or_false] at ha
    refine setActivity_holdingLaw (takeInterruption_holdingLaw hs i reason) ?_ ?_
    · rw [takeInterruption_activity]
      rcases ha with ⟨h1, rfl⟩ | ⟨h1, rfl⟩ | ⟨h1, rfl⟩ <;> simp [h1, freeOfIndex]
    · rcases ha with ⟨h1, rfl⟩ | ⟨h1, rfl⟩ | ⟨h1, rfl⟩ <;> simp [freeOfIndex]
  | @freshGranted i n _ ha hl hn _ ht =>
    obtain ⟨u, rfl, ht⟩ := ht
    obtain ⟨rfl, heq⟩ := afterFreshClaim_of_granted hn
    have hi : freshIndices s i = none := freshIndex_of_unbound ((hs.1 i).1 (.inr (.inl ha)))
    refine claimed_holdingLaw hs (.inr (.inl ha)) ?_ ?_ ?_ ht
    · rfl
    · rfl
    · rw [heq]
      exact (holdingLaw_iff.mp hs).2.grant hi
  | @resumeGranted i _ ha hl n hn _ ht =>
    obtain ⟨u, rfl, ht⟩ := ht
    have hi : freshIndices s i = none := freshIndex_of_unbound ((hs.1 i).1 (.inr (.inr (.inl ha))))
    have hf : Function.update (freshIndices s) i none = freshIndices s := by
      rw [← hi, Function.update_eq_self]
    refine claimed_holdingLaw hs (.inr (.inr (.inl ha))) ?_ ?_ ?_ ht
    · rfl
    · rfl
    · have := (holdingLaw_iff.mp hs).2.updateEntry n (g := fun e => { e with claimedBy := some i }) fun _ => rfl
      rw [← hf] at this
      exact this
  | @freshRefused i _ ha _ _ ht =>
    obtain rfl | ⟨o, rfl⟩ := ht
    · exact disposed hs
    · exact holdingLaw_of_turn hs (endDie_sitesElse s i _ _) (by simp) (endDie_turn _ _ fun h => h.1 (.inr (.inl ha)))
  | @resumeRefused i _ ha _ _ ht =>
    have hb (h : indexFitsActivity (channelOf s i)) : (channelOf s i).bound = none := h.1 (.inr (.inr (.inl ha)))
    obtain rfl | rfl | ⟨g, rfl⟩ := ht
    · exact disposed hs
    · exact holdingLaw_of_turn hs (notListed_sitesElse s i) (by simp) (notListed_turn hb)
    · refine holdingLaw_of_turn hs (sitesElse_trans (modifyChannel_sitesElse s i _) (endDie_sitesElse _ i _ _)) (by simp) ?_
      exact endDie_figures_turn g _ _ hb
  | report _ ha => exact takeReport_holdingLaw hs ha
  | @keyRequest i b _ ha =>
    refine setActivity_holdingLaw (holdingLaw_congr hs rfl rfl) ?_ (by simp [freeOfIndex])
    rw [channelOf_setDerivation, ha]
    simp [freeOfIndex]
  | @keyDelivered i k _ ha =>
    have hcomputed : holdingLaw (setDerivation s (beginNextKey s.lot s.derivation)) := holdingLaw_congr hs rfl rfl
    rcases takeKey_turn (s := setDerivation s (beginNextKey s.lot s.derivation)) ha k with ht | ht
    · exact holdingLaw_of_turn hcomputed (takeKey_sitesElse _ i k) (by simp) ht
    · rw [ht]
      exact hcomputed
  | keyWithdrawal => exact disposed (holdingLaw_congr hs rfl rfl)
  | slotGranted => exact holdingLaw_of_slotSteps hs (grant_slotSteps s _ _) (by simp)
  | slotAwaited ha =>
    refine setActivity_holdingLaw (holdingLaw_congr hs rfl rfl) ?_ (by simp [freeOfIndex])
    rw [channelOf_setRail, ha]
    simp [freeOfIndex]
  | slotWithdrawal => exact disposed (holdingLaw_congr hs rfl rfl)
  | @pulseEnd i =>
    have hstopped : holdingLaw (stopPulse s i) := holdingLaw_of_slotSteps hs (stopPulse_slotSteps s i) (by simp)
    refine holdingLaw_of_slotSteps ?_ (scan_slotSteps _) (by simp)
    split
    next ha =>
      refine setActivity_holdingLaw hstopped ?_ (by simp [freeOfIndex, scanTasks])
      have hact : (channelOf (stopPulse s i) i).activity = .pulsing := by simp [stopPulse, channelOf_setMirror, ha]
      rw [hact]
      simp [freeOfIndex]
    · exact hstopped
  | @pulseCut i =>
    refine disposed (holdingLaw_of_slotSteps ?_ (scan_slotSteps _) (by simp))
    exact holdingLaw_of_slotSteps hs (stopPulse_slotSteps s i) (by simp)
  | cutFindsNone => exact disposed hs
  | readingDecides v =>
    exact holdingLaw_of_slotSteps (s := { s with reading := limitReading v.output }) hs (decideHold_slotSteps _) (by simp)
  | readingFrees v =>
    exact holdingLaw_of_slotSteps (s := { s with reading := limitReading v.output }) hs (decideHold_slotSteps _) (by simp)
  | exchangeRequest => exact takeExchange_holdingLaw hs _
  | exchangeStarts ha => exact takeExchange_holdingLaw (lotCheck_holdingLaw hs ha) _
  | response bytes => exact holdingLaw_of_goes hs (judgeResponse_goes s _ _ bytes) (by simp)
  | timeout i =>
    refine holdingLaw_of_goes (holdingLaw_congr hs rfl rfl) (failSending_goes (countOn s i _) i false) (by simp)
  | _ => exact keep (by simp [clearAttention]) (by simp [clearAttention])

/-! ## The obligation -/

theorem step_workLaw {s t : State} (hs : workLaw s) (h : step s = .next t) : workLaw t :=
  step_keeps (P := workLaw) (fun _ _ h => h) (fun _ _ _ h e => effect_workLaw h e) hs h

theorem step_workAndHolding {s t : State} (hs : workAndHolding s) (h : step s = .next t) : workAndHolding t :=
  step_keeps (P := workAndHolding) (fun _ _ h => h) (fun _ _ _ h e => ⟨effect_workLaw h.1 e, effect_holdingLaw h.1 h.2 e⟩)
    hs h

/-- Settles O7: the three step lemmas. -/
theorem lotBoundsAndSealAreKept : Obligations.LotBoundsAndSealAreKept :=
  ⟨fun _ _ hs h => step_lotBounds hs h, fun _ _ hs h => step_workLaw hs h, fun _ _ hs h => (step_workAndHolding hs h).2⟩

end Sys2Proof.Machine
end

section
/-!
The programming rail: which sites a round-robin scan grants (R122), and the law of the rail (R119), kept by every step.
-/

namespace Sys2Proof.Machine

/-! ## A vector over the sites -/

theorem getElem_set_same {α : Type} (v : Vector α 16) (i : Site) (x : α) : (v.set i x)[i] = x := by simp

theorem getElem_set_other {α : Type} (v : Vector α 16) {i j : Site} (x : α) (h : j ≠ i) : (v.set i x)[j] = v[j] :=
  Vector.getElem_set_ne _ _ fun hij => h (Fin.ext hij).symm

theorem getElem_set_update {α : Type} (v : Vector α 16) (i : Site) (x : α) :
    (fun j : Site => (v.set i x)[j]) = Function.update (fun j : Site => v[j]) i x := by
  funext j
  by_cases hj : j = i
  · subst hj; rw [getElem_set_same, Function.update_self]
  · rw [getElem_set_other _ _ hj, Function.update_of_ne hj]

/-! ## The sites that a scan grants (R122) -/

/-- The waiting sites of a list that are granted, in its order, with the slots that are free. -/
def grantedOf (r : RailController) (sites : List Site) : List Site :=
  if r.hold then [] else (sites.filter fun j => (r.waiting[j]).isSome).take (r.slotTotal - r.slotsInUse)

/-- What becomes of a state of which these sites are granted, one after the other. -/
structure Grants (granted : List Site) (s t : State) : Prop where
  frame : t = { s with channels := t.channels, rail := t.rail }
  rail : t.rail = { s.rail with
    slotsInUse := s.rail.slotsInUse + granted.length
    lastGranted := granted.getLast?.getD s.rail.lastGranted
    waiting := t.rail.waiting
    pulses := t.rail.pulses }
  others : ∀ j : Site, j ∉ granted →
    t.rail.waiting[j] = s.rail.waiting[j] ∧ t.rail.pulses[j] = s.rail.pulses[j] ∧ channelOf t j = channelOf s j
  sites : ∀ (j : Site) (attempt : Nat), j ∈ granted → s.rail.waiting[j] = some attempt →
    t.rail.waiting[j] = none ∧
      t.rail.pulses[j] = some (pulseWidth s.lot.profile s.touchdown.latchedTemp attempt) ∧
      channelOf t j = countGrant (channelOf s j) attempt

theorem grants_none (s : State) : Grants [] s s :=
  ⟨rfl, by simp, fun _ _ => ⟨rfl, rfl, rfl⟩, fun _ _ h => by simp at h⟩

/-- A grant touches the slots and the channel of its site alone. -/
theorem grant_grants (s : State) (i : Site) (attempt : Nat) :
    grant s i attempt = { s with channels := (grant s i attempt).channels, rail := (grant s i attempt).rail } ∧
      (grant s i attempt).rail = { s.rail with
        slotsInUse := s.rail.slotsInUse + 1
        lastGranted := i
        waiting := s.rail.waiting.set i none
        pulses := s.rail.pulses.set i (some (pulseWidth s.lot.profile s.touchdown.latchedTemp attempt)) } ∧
      channelOf (grant s i attempt) i = countGrant (channelOf s i) attempt ∧ sitesElse s (grant s i attempt) i :=
  ⟨rfl, rfl, channelOf_modifyChannel _ i _, modifyChannel_sitesElse (setRail s _) i _⟩

theorem Grants.cons {granted : List Site} {s t : State} {i : Site} {attempt : Nat} (hw : s.rail.waiting[i] = some attempt)
    (hi : i ∉ granted) (h : Grants granted (grant s i attempt) t) : Grants (i :: granted) s t := by
  obtain ⟨gframe, grail, gsite, gelse⟩ := grant_grants s i attempt
  obtain ⟨hframe, hrail, hothers, hsites⟩ := h
  have gother (j : Site) (hj : j ≠ i) : (grant s i attempt).rail.waiting[j] = s.rail.waiting[j] ∧
      (grant s i attempt).rail.pulses[j] = s.rail.pulses[j] ∧ channelOf (grant s i attempt) j = channelOf s j := by
    rw [grail]
    exact ⟨getElem_set_other _ _ hj, getElem_set_other _ _ hj, gelse j hj⟩
  refine ⟨?_, ?_, fun j hj => ?_, fun j a hj ha => ?_⟩
  · rw [hframe, gframe]
  · rw [hrail, grail]
    simp [Nat.add_assoc, Nat.add_comm 1, List.getLast?_cons]
  · obtain ⟨hji, hj⟩ := not_or.mp (mt List.mem_cons.mpr hj)
    obtain ⟨h1, h2, h3⟩ := hothers j hj
    obtain ⟨g1, g2, g3⟩ := gother j hji
    exact ⟨h1.trans g1, h2.trans g2, h3.trans g3⟩
  · by_cases hji : j = i
    · subst hji
      obtain rfl : attempt = a := Option.some.inj (hw.symm.trans ha)
      obtain ⟨h1, h2, h3⟩ := hothers j hi
      rw [grail] at h1 h2
      exact ⟨h1.trans (getElem_set_same _ _ _), h2.trans (getElem_set_same _ _ _), h3.trans gsite⟩
    · obtain ⟨g1, -, g3⟩ := gother j hji
      obtain ⟨h1, h2, h3⟩ := hsites j a ((List.mem_cons.mp hj).resolve_left hji) (g1.trans ha)
      exact ⟨h1, h2, by rw [h3, g3]⟩

theorem scanSite_of_not_granted {s : State} {i : Site} (h : s.rail.waiting[i] = none ∨ slotFree s.rail = false) :
    scanSite s i = s := by
  unfold scanSite
  split
  next hw =>
    have hf : slotFree s.rail = false := h.resolve_left (by simp [hw])
    simp [hf]
  · rfl

theorem scanSite_of_granted {s : State} {i : Site} {attempt : Nat} (hw : s.rail.waiting[i] = some attempt)
    (hf : slotFree s.rail = true) : scanSite s i = grant s i attempt := by
  simp [scanSite, hw, hf]

theorem slotFree_iff {r : RailController} : slotFree r = true ↔ r.slotsInUse < r.slotTotal ∧ r.hold = false := by
  simp [slotFree]

/-- The granted sites are the first waiting ones of the list. -/
theorem forSites_scanSite_grants {l : List Site} (hl : l.Nodup) (s : State) :
    Grants (grantedOf s.rail l) s (forSites l scanSite s) := by
  induction l generalizing s with
  | nil => simpa [grantedOf, forSites] using grants_none s
  | cons i l ih =>
    obtain ⟨hi, hl⟩ := List.nodup_cons.mp hl
    have hloop : forSites (i :: l) scanSite s = forSites l scanSite (scanSite s i) := rfl
    rw [hloop]
    cases hw : s.rail.waiting[i] with
    | none =>
      have hsame : grantedOf s.rail (i :: l) = grantedOf s.rail l := by
        rw [grantedOf, List.filter_cons_of_neg (by rw [hw]; simp)]
        rfl
      rw [scanSite_of_not_granted (.inl hw), hsame]
      exact ih hl s
    | some attempt =>
      cases hf : slotFree s.rail with
      | false =>
        have hnone (l : List Site) : grantedOf s.rail l = [] := by
          unfold grantedOf
          split
          · rfl
          next hhold =>
            have : s.rail.slotTotal - s.rail.slotsInUse = 0 := by
              have : ¬ (s.rail.slotsInUse < s.rail.slotTotal ∧ s.rail.hold = false) := by simp [← slotFree_iff, hf]
              have : ¬ s.rail.slotsInUse < s.rail.slotTotal := fun h => this ⟨h, by simpa using hhold⟩
              omega
            simp [this]
        rw [scanSite_of_not_granted (.inr hf), hnone, ← hnone l]
        exact ih hl s
      | true =>
        obtain ⟨hfree, hhold⟩ := slotFree_iff.mp hf
        obtain ⟨-, grail, -, -⟩ := grant_grants s i attempt
        have hsame : l.filter (fun j => ((grant s i attempt).rail.waiting[j]).isSome) =
            l.filter fun j => (s.rail.waiting[j]).isSome := by
          refine List.filter_congr fun j hj => ?_
          have hne : j ≠ i := fun h => hi (h ▸ hj)
          rw [grail, getElem_set_other _ _ hne]
        have hgranted : grantedOf s.rail (i :: l) = i :: grantedOf (grant s i attempt).rail l := by
          have hcount : s.rail.slotTotal - s.rail.slotsInUse = s.rail.slotTotal - (s.rail.slotsInUse + 1) + 1 := by omega
          rw [grantedOf, grantedOf, hsame, grail, List.filter_cons_of_pos (by rw [hw]; rfl)]
          simp [hhold, hcount]
        rw [scanSite_of_granted hw hf, hgranted]
        refine .cons hw (fun h => hi ?_) (ih hl _)
        unfold grantedOf at h
        split at h
        · simp at h
        · exact (List.mem_filter.mp (List.mem_of_mem_take h)).1

/-- The sites that a scan grants. -/
def scanGranted (r : RailController) : List Site := grantedOf r (scanOrder r.lastGranted)

theorem scanOrder_nodup (last : Site) : (scanOrder last).Nodup :=
  allSites_nodup.map (add_right_injective (last + 1))

theorem scan_grants (s : State) : Grants (scanGranted s.rail) s (scan s) :=
  forSites_scanSite_grants (scanOrder_nodup _) s

/-- The order of a scan as the rules count it. -/
theorem scanOrder_eq (last : Site) :
    scanOrder last = (List.range 16).map fun k => last + 1 + Fin.ofNat 16 k := by
  have hsites : Config.allSites = (List.range 16).map (Fin.ofNat 16) := by decide
  rw [scanOrder, hsites, List.map_map]
  rfl

theorem waiting_of_mem_scanGranted {r : RailController} {j : Site} (h : j ∈ scanGranted r) : r.waiting[j] ≠ none := by
  unfold scanGranted grantedOf at h
  split at h
  · simp at h
  · simpa [Option.isSome_iff_ne_none] using (List.mem_filter.mp (List.mem_of_mem_take h)).2

/-- A site that does not wait is as before. -/
theorem scan_of_not_waiting {s : State} {i : Site} (h : s.rail.waiting[i] = none) :
    (scan s).rail.waiting[i] = none ∧ (scan s).rail.pulses[i] = s.rail.pulses[i] ∧ channelOf (scan s) i = channelOf s i := by
  obtain ⟨h1, h2, h3⟩ := (scan_grants s).others i fun hi => waiting_of_mem_scanGranted hi h
  exact ⟨h1.trans h, h2, h3⟩

/-! ## The law of the rail, site by site (R119) -/

/-- The slots in use are bounded and counted. -/
def slotsCounted (r : RailController) : Prop :=
  r.slotTotal ≤ 16 ∧ r.slotsInUse ≤ r.slotTotal ∧ r.slotsInUse = siteCount fun i => r.pulses[i]

/-- The pulse and the waiting request of a site suit the activity of its channel. -/
def slotSuits (r : RailController) (i : Site) (a : Activity) : Prop :=
  (r.pulses[i] ≠ none → a = .pulsing ∨ a = .cutting) ∧ (r.waiting[i] ≠ none → a = .awaitingSlot ∨ a = .withdrawingSlot)

theorem railLaw_iff {s : State} :
    railLaw s ↔ slotsCounted s.rail ∧ ∀ i, slotSuits s.rail i (channelOf s i).activity :=
  ⟨fun ⟨htotal, huse, hcount, hsites⟩ => ⟨⟨htotal, huse, hcount⟩, hsites⟩,
    fun ⟨⟨htotal, huse, hcount⟩, hsites⟩ => ⟨htotal, huse, hcount, hsites⟩⟩

/-- The slots, the pulses and the waiting requests are those of another rail. -/
def SameSlots (r r' : RailController) : Prop :=
  r'.slotTotal = r.slotTotal ∧ r'.slotsInUse = r.slotsInUse ∧ r'.pulses = r.pulses ∧ r'.waiting = r.waiting

theorem slotsCounted_congr {r r' : RailController} (h : slotsCounted r) (hr : SameSlots r r') : slotsCounted r' := by
  obtain ⟨h1, h2, h3, -⟩ := hr
  rwa [slotsCounted, h1, h2, h3]

theorem slotSuits_congr {r r' : RailController} {i : Site} {a : Activity} (h : slotSuits r i a) (hr : SameSlots r r') :
    slotSuits r' i a := by
  obtain ⟨-, -, h3, h4⟩ := hr
  rwa [slotSuits, h3, h4]

/-- The activities in which a channel has neither a pulse nor a waiting request. -/
def slotless (a : Activity) : Prop := a ≠ .pulsing ∧ a ≠ .cutting ∧ a ≠ .awaitingSlot ∧ a ≠ .withdrawingSlot

theorem none_of_slotless {r : RailController} {i : Site} {a : Activity} (h : slotSuits r i a) (ha : slotless a) :
    r.pulses[i] = none ∧ r.waiting[i] = none := by
  obtain ⟨hp, hc, hw, hd⟩ := ha
  exact ⟨Classical.not_not.mp fun hx => (h.1 hx).elim hp hc, Classical.not_not.mp fun hx => (h.2 hx).elim hw hd⟩

theorem slotSuits_of_none {r : RailController} {i : Site} (h : r.pulses[i] = none ∧ r.waiting[i] = none) (a : Activity) :
    slotSuits r i a := ⟨fun hx => absurd h.1 hx, fun hx => absurd h.2 hx⟩

/-- Channels that keep their activity, or that have neither pulse nor request, keep the law. -/
theorem railLaw_of_activities {s t : State} (h : railLaw s) (hr : SameSlots s.rail t.rail)
    (ha : ∀ i, (channelOf t i).activity = (channelOf s i).activity ∨ slotless (channelOf s i).activity) : railLaw t := by
  rw [railLaw_iff] at h ⊢
  refine ⟨slotsCounted_congr h.1 hr, fun i => ?_⟩
  rcases ha i with ha | ha
  · rw [ha]
    exact slotSuits_congr (h.2 i) hr
  · exact slotSuits_congr (slotSuits_of_none (none_of_slotless (h.2 i) ha) _) hr

theorem railLaw_congr {s t : State} (h : railLaw s) (hc : t.channels = s.channels) (hr : SameSlots s.rail t.rail) :
    railLaw t :=
  railLaw_of_activities h hr fun i => .inl (by rw [channelOf, hc]; rfl)

/-- A change of one site that has neither pulse nor request keeps the law. -/
theorem railLaw_of_site {s t : State} {i : Site} (h : railLaw s) (hel : sitesElse s t i) (hr : SameSlots s.rail t.rail)
    (ha : slotless (channelOf s i).activity) : railLaw t :=
  railLaw_of_activities h hr fun j => by
    by_cases hj : j = i
    · subst hj; exact .inr ha
    · exact .inl (by rw [hel j hj])

theorem railLaw_of_goes {s t : State} {i : Site} (h : railLaw s) (hg : SiteGoes s t i) (hr : SameSlots s.rail t.rail) :
    railLaw t := by
  obtain ⟨hel, ⟨ha, -⟩ | ⟨⟨task, ha⟩, -⟩⟩ := hg
  · refine railLaw_of_activities h hr fun j => .inl ?_
    by_cases hj : j = i
    · subst hj; exact ha
    · rw [hel j hj]
  · exact railLaw_of_site h hel hr (by simp [ha, slotless])

/-- A rail without a pulse and without a request keeps the law, whatever the channels. -/
theorem railLaw_of_empty {t : State} (htotal : t.rail.slotTotal ≤ 16) (huse : t.rail.slotsInUse = 0)
    (h : ∀ i : Site, t.rail.pulses[i] = none ∧ t.rail.waiting[i] = none) : railLaw t := by
  rw [railLaw_iff]
  refine ⟨⟨htotal, by omega, ?_⟩, fun i => slotSuits_of_none (h i) _⟩
  rw [siteCount_of_none fun i => (h i).1, huse]

/-! ## The rail's own commands -/

/-- A grant to a site whose channel has neither pulse, or awaits it in this way. -/
theorem grant_railLaw {s : State} {i : Site} (h : railLaw s) (attempt : Nat) (hf : slotFree s.rail = true)
    (ha : (channelOf s i).activity = .askingSlot ∨ (channelOf s i).activity = .awaitingSlot ∨
      (channelOf s i).activity = .withdrawingSlot) : railLaw (grant s i attempt) := by
  obtain ⟨-, grail, gsite, gelse⟩ := grant_grants s i attempt
  rw [railLaw_iff] at h ⊢
  obtain ⟨⟨htotal, huse, hcount⟩, hsites⟩ := h
  have hnone : s.rail.pulses[i] = none := by
    refine Classical.not_not.mp fun hx => ?_
    rcases (hsites i).1 hx with hp | hp <;> rcases ha with h1 | h1 | h1 <;> rw [h1] at hp <;> cases hp
  rw [grail]
  refine ⟨⟨htotal, (slotFree_iff.mp hf).1, ?_⟩, fun j => ?_⟩
  · simp only [getElem_set_update]
    rw [siteCount_update_some hnone, ← hcount]
  · by_cases hj : j = i
    · subst hj
      refine ⟨fun _ => ?_, fun hx => absurd (getElem_set_same _ _ _) hx⟩
      rw [gsite]
      rcases ha with h1 | h1 | h1 <;> simp [countGrant, h1]
    · rw [gelse j hj]
      simpa only [slotSuits, getElem_set_other _ _ hj] using hsites j

theorem scan_railLaw {s : State} (h : railLaw s) : railLaw (scan s) := by
  refine forSites_inv railLaw (fun x i hx => ?_) _ _ h
  unfold scanSite
  split
  next attempt hw =>
    split
    next hf => exact grant_railLaw hx attempt hf (.inr (((railLaw_iff.mp hx).2 i).2 (by simp [hw])))
    · exact hx
  · exact hx

theorem stopPulse_sitesElse (s : State) (i : Site) : sitesElse s (stopPulse s i) i :=
  modifyChannel_sitesElse (setRail s (freeSlot s.rail i)) i fun c => { c with dieArmed := false }

/-- The pulse of a site ends, and its slot is free. -/
theorem stopPulse_railLaw {s : State} {i : Site} (h : railLaw s) (hp : s.rail.pulses[i] ≠ none) : railLaw (stopPulse s i) := by
  rw [railLaw_iff] at h ⊢
  obtain ⟨⟨htotal, huse, hcount⟩, hsites⟩ := h
  have hrail : (stopPulse s i).rail = freeSlot s.rail i := rfl
  have hact (j : Site) : (channelOf (stopPulse s i) j).activity = (channelOf s j).activity := by
    by_cases hj : j = i
    · subst hj
      simp [stopPulse, channelOf_setMirror]
    · rw [stopPulse_sitesElse s i j hj]
  have hone := siteCount_update_none (f := fun j : Site => s.rail.pulses[j]) hp
  rw [hrail, freeSlot]
  refine ⟨⟨htotal, (Nat.sub_le _ _).trans huse, ?_⟩, fun j => ?_⟩
  · simp only [getElem_set_update]
    omega
  · rw [hact]
    by_cases hj : j = i
    · subst hj
      exact ⟨fun hx => absurd (getElem_set_same _ _ _) hx, (hsites j).2⟩
    · simpa only [slotSuits, getElem_set_other _ _ hj] using hsites j

theorem decideHold_railLaw {s : State} (h : railLaw s) : railLaw (decideHold s) := by
  have held (b : Bool) : railLaw (setRail s { s.rail with hold := b }) := railLaw_congr h rfl ⟨rfl, rfl, rfl, rfl⟩
  unfold decideHold
  dsimp only
  split
  · split
    · exact h
    · exact railLaw_congr (held true) rfl ⟨rfl, rfl, rfl, rfl⟩
  · split
    · split
      · exact scan_railLaw (held false)
      · exact h
    · exact h

/-- A request that joins the waiting ones, of a channel that then awaits its slot. -/
theorem slotAwaited_railLaw {s : State} {i : Site} (h : railLaw s) (ha : (channelOf s i).activity = .askingSlot) (w : Option Nat) :
    railLaw (setActivity (setRail s { s.rail with waiting := s.rail.waiting.set i w }) i .awaitingSlot) := by
  rw [railLaw_iff] at h ⊢
  refine ⟨h.1, fun j => ?_⟩
  by_cases hj : j = i
  · subst hj
    rw [channelOf_setActivity]
    have hnone := (none_of_slotless (h.2 j) (by simp [ha, slotless])).1
    exact ⟨fun hx => absurd hnone hx, fun _ => .inl rfl⟩
  · rw [setActivity_sitesElse (setRail s { s.rail with waiting := s.rail.waiting.set i w }) i _ j hj]
    have hrest := h.2 j
    rw [slotSuits, ← getElem_set_other s.rail.waiting w hj] at hrest
    exact hrest

/-- The waiting request of a site that is taken out of the set. -/
theorem withdrawn_railLaw {s : State} (h : railLaw s) (i : Site) :
    railLaw (setRail s { s.rail with waiting := s.rail.waiting.set i none }) := by
  rw [railLaw_iff] at h ⊢
  refine ⟨h.1, fun j => ⟨(h.2 j).1, fun hx => (h.2 j).2 ?_⟩⟩
  by_cases hj : j = i
  · subst hj
    exact absurd (getElem_set_same _ _ _) hx
  · rw [← getElem_set_other s.rail.waiting none hj]
    exact hx

/-- A channel that has to do with no slot any more disposes of its index. -/
theorem dispose_railLaw {s : State} {i : Site} (h : railLaw s) (hp : s.rail.pulses[i] = none) (hw : s.rail.waiting[i] = none) :
    railLaw (dispose s i) := by
  have hr : (dispose s i).rail = s.rail := by simp
  rw [railLaw_iff] at h ⊢
  rw [hr]
  refine ⟨h.1, fun j => ?_⟩
  by_cases hj : j = i
  · subst hj
    exact slotSuits_of_none ⟨hp, hw⟩ _
  · rw [dispose_sitesElse s i j hj]
    exact h.2 j

/-! ## The law under the requests and the commands of the touchdown -/

/-- The laws of work and of the rail. -/
def workAndRail (s : State) : Prop := workLaw s ∧ railLaw s

theorem slotless_of_not_works {c : SiteChannel} (h : ¬ works c) : slotless c.activity := by
  refine ⟨fun ha => h ?_, fun ha => h ?_, fun ha => h ?_, fun ha => h ?_⟩ <;> exact works_of_activity (by simp [ha]) (by simp [ha])

/-- With no lot no site has a pulse. -/
theorem slotsInUse_of_noLot {s : State} (hw : workLaw s) (h : railLaw s) (hl : s.lot.state = .noLot) : s.rail.slotsInUse = 0 := by
  rw [railLaw_iff] at h
  obtain ⟨⟨-, -, hcount⟩, hsites⟩ := h
  rw [hcount]
  refine siteCount_of_none fun i => Classical.not_not.mp fun hx => ?_
  rcases (hsites i).1 hx with ha | ha <;> exact lot_of_working (i := i) hw (by simp [ha]) (by simp [ha]) (by simp [ha]) hl

theorem interruptWorking_railLaw {s : State} (h : railLaw s) (reason : InterruptReason) : railLaw (interruptWorking s reason) := by
  refine railLaw_of_activities h ?_ fun i => .inl ?_
  · rw [interruptWorking_eq]
    exact ⟨rfl, rfl, rfl, rfl⟩
  · rw [channelOf_interruptWorking]
    exact (sendInterruption_keeps reason _).1

theorem workAndRail_keptByRequests : KeptByRequests workAndRail where
  blind h hs := ⟨workLaw_keptByRequests.blind h hs.1, railLaw_congr hs.2 h.channels (by rw [h.rail]; exact ⟨rfl, rfl, rfl, rfl⟩)⟩
  move {s t} h hs := by
    refine ⟨workLaw_keptByRequests.move h hs.1, ?_⟩
    obtain ⟨hw, hs⟩ := hs
    cases h with
    | opens total htotal hl =>
      have hzero := slotsInUse_of_noLot hw hs hl
      rw [railLaw_iff] at hs ⊢
      obtain ⟨⟨-, -, hcount⟩, hsites⟩ := hs
      refine ⟨⟨htotal, ?_, hcount⟩, hsites⟩
      show s.rail.slotsInUse ≤ total
      omega
    | aborts =>
      refine interruptWorking_railLaw ?_ _
      exact railLaw_congr hs rfl ⟨rfl, rfl, rfl, rfl⟩
    | _ => exact railLaw_congr hs rfl ⟨rfl, rfl, rfl, rfl⟩

theorem takeFall_railLaw {s : State} (hw : workLaw s) (h : railLaw s) : railLaw (takeFall s) := by
  have hlevel : railLaw (setTouchdown s { s.touchdown with contactLevel := false }) := railLaw_congr h rfl ⟨rfl, rfl, rfl, rfl⟩
  unfold takeFall
  dsimp only
  split
  · exact hlevel
  next hset =>
    refine (workAndRail_keptByRequests.closeIfDraining ?_ ?_).2
    · exact ⟨setTouchdown_workLaw_of_not_active _ (setTouchdown_workLaw hw rfl) (by simp [hset]),
        railLaw_congr hlevel rfl ⟨rfl, rfl, rfl, rfl⟩⟩
    · exact .inl rfl
  · unfold fallInActive
    split
    · exact hlevel
    · split
      · exact hlevel
      · refine interruptWorking_railLaw ?_ _
        exact railLaw_congr hlevel rfl ⟨rfl, rfl, rfl, rfl⟩
  · exact railLaw_congr hlevel rfl ⟨rfl, rfl, rfl, rfl⟩

theorem considerFrame_railLaw {s : State} (hw : workLaw s) (h : railLaw s) (hset : s.touchdown.state = .settling)
    (late : SiteSet) : railLaw (considerFrame s late) := by
  have hnone := not_works_of_not_active hw (by simp [hset])
  unfold considerFrame
  dsimp only
  split
  · have hempty (i : Site) := none_of_slotless ((railLaw_iff.mp h).2 i) (slotless_of_not_works (hnone i))
    obtain ⟨⟨htotal, -, hcount⟩, -⟩ := railLaw_iff.mp h
    have hrail {t : State} (ht : t.rail = s.rail) : railLaw t := by
      refine railLaw_of_empty ?_ ?_ ?_ <;> rw [ht]
      · exact htotal
      · exact hcount.trans (siteCount_of_none fun i => (hempty i).1)
      · exact hempty
    exact hrail (forSites_keeps (fun s => s.rail) (fun s i => by simp) _ _)
  · refine (workAndRail_keptByRequests.closeIfDraining ?_ ?_).2
    · exact ⟨workLaw_of_none_works hnone, railLaw_congr h rfl ⟨rfl, rfl, rfl, rfl⟩⟩
    · exact .inr rfl

theorem leaveActive_railLaw {s : State} (h : railLaw s) : railLaw (leaveActive s) := by
  refine railLaw_of_activities h ?_ fun i => ?_
  · rw [leaveActive_eq]
    exact ⟨rfl, rfl, rfl, rfl⟩
  · have hch : channelOf (leaveActive s) i = takeEntry (channelOf s i) := by
      rw [leaveActive_eq]
      exact channelOf_map s takeEntry i
    rw [hch, takeEntry]
    split
    next ha => exact .inr (by simp [ha, slotless])
    · exact .inl rfl

theorem takeExchange_railLaw {s : State} (h : railLaw s) (i : Site) : railLaw (takeExchange s i) := by
  unfold takeExchange
  split
  next task ha =>
    split
    · exact railLaw_of_site h (setActivity_sitesElse (modifyPort s i _) i _) ⟨rfl, rfl, rfl, rfl⟩ (by simp [ha, slotless])
    · exact h
  · exact h

theorem takeInterruption_sitesElse (s : State) (i : Site) (reason : InterruptReason) :
    sitesElse s (takeInterruption s i reason) i := modifyChannel_sitesElse s i _

/-- An interruption withdraws the request of a channel, or has its pulse cut (R110). -/
theorem withdraws_railLaw {s : State} {i : Site} {a : Activity} (h : railLaw s) (reason : InterruptReason)
    (ha : ((channelOf s i).activity, a) ∈
      [(Activity.awaitingKey, Activity.withdrawingKey), (.awaitingSlot, .withdrawingSlot), (.pulsing, .cutting)]) :
    railLaw (setActivity (takeInterruption s i reason) i a) := by
  rw [railLaw_iff] at h ⊢
  refine ⟨h.1, fun j => ?_⟩
  have hsite := h.2 j
  by_cases hj : j = i
  · subst hj
    simp only [List.mem_cons, Prod.mk.injEq, List.not_mem_nil, or_false] at ha
    rw [channelOf_setActivity]
    rcases ha with ⟨h1, rfl⟩ | ⟨h1, rfl⟩ | ⟨h1, rfl⟩ <;> rw [h1] at hsite
    · exact slotSuits_of_none (none_of_slotless hsite (by simp [slotless])) _
    · exact ⟨fun hx => by simpa using hsite.1 hx, fun _ => .inr rfl⟩
    · exact ⟨fun _ => .inr rfl, fun hx => by simpa using hsite.2 hx⟩
  · rw [setActivity_sitesElse (takeInterruption s i reason) i a j hj, takeInterruption_sitesElse s i reason j hj]
    exact hsite

/-! ## Every effect keeps the law -/

/-- What becomes of a channel that takes a claim leaves it without a slot. -/
theorem claimed_railLaw {s t : State} {i : Site} {l : LotController} {g : SiteChannel → SiteChannel} (h : railLaw s)
    (ha : slotless (channelOf s i).activity)
    (ht : t = modifyChannel (setLot s l) i g ∨ t = dispose (modifyChannel (setLot s l) i g) i) : railLaw t := by
  have hel := modifyChannel_sitesElse (setLot s l) i g
  rcases ht with rfl | rfl
  · exact railLaw_of_site h hel ⟨rfl, rfl, rfl, rfl⟩ ha
  · exact railLaw_of_site h (sitesElse_trans hel (dispose_sitesElse _ i)) (by simp [SameSlots]) ha

theorem effect_railLaw {c : Instr} {s t : State} (hw : workLaw s) (hs : railLaw s) (h : Effect c s t) : railLaw t := by
  have K := workAndRail_keptByRequests
  have keep {t : State} (hc : t.channels = s.channels) (hr : t.rail = s.rail) : railLaw t :=
    railLaw_congr hs hc (by rw [hr]; exact ⟨rfl, rfl, rfl, rfl⟩)
  have site {t : State} {i : Site} (hel : sitesElse s t i) (ha : slotless (channelOf s i).activity)
      (hr : t.rail = s.rail) : railLaw t :=
    railLaw_of_site hs hel (by rw [hr]; exact ⟨rfl, rfl, rfl, rfl⟩) ha
  have disposed (i : Site) (ha : slotless (channelOf s i).activity) : railLaw (dispose s i) :=
    site (dispose_sitesElse s i) ha (by simp)
  have read (v : Conversion) : railLaw (decideHold { s with reading := limitReading v.output }) :=
    decideHold_railLaw (s := { s with reading := limitReading v.output }) (keep rfl rfl)
  cases h with
  | powerOnReset =>
    refine railLaw_of_empty ?_ rfl fun i => ?_
    · exact Nat.zero_le _
    · simp [State.reset, RailController.afterPowerOn]
  | startupEnd =>
    refine (K.examineIfPending ?_).2
    rw [startedUp_eq]
    exact ⟨workLaw_congr hw rfl rfl rfl, keep rfl rfl⟩
  | softReset order =>
    have hrail : (softlyReset order s).rail = cutRail s.rail := by
      simp [softlyReset, resetStepThree, resetStepOne]
    rw [railLaw_iff] at hs
    refine railLaw_of_empty ?_ ?_ ?_
    · rw [hrail]; exact hs.1.1
    · rw [hrail]; rfl
    · rw [hrail]; intro i; simp [cutRail]
  | softResetEnd =>
    refine (K.examineIfPending ?_).2
    rw [softResetEnded_eq]
    exact ⟨workLaw_congr hw rfl rfl rfl, railLaw_congr hs rfl ⟨rfl, rfl, rfl, rfl⟩⟩
  | notify => exact (K.notifyUnit ⟨hw, hs⟩).2
  | request => exact (K.reexamine (K.carryOut ⟨hw, hs⟩ _)).2
  | fall => exact takeFall_railLaw (s := { s with contactLine := false }) hw hs
  | settleExpiry m hset =>
    have hlatched : workAndRail (latch s m.contactSense) := ⟨workLaw_congr hw rfl rfl rfl, keep rfl rfl⟩
    obtain ⟨hw', hs'⟩ := K.notifyUnit hlatched
    exact considerFrame_railLaw hw' hs' (by rw [notifyUnit_touchdown_state]; exact hset) _
  | @siteDone i _ _ ha => exact site (setActivity_sitesElse s i _) (by simp [ha, slotless]) rfl
  | @frameDone i _ _ _ ha _ hd =>
    have hleft := leaveActive_workLaw (siteDone_workLaw hw ha) hd
    have hdone : railLaw (setActivity s i .resting) := site (setActivity_sitesElse s i _) (by simp [ha, slotless]) rfl
    exact (K.finishFrame ⟨hleft, leaveActive_railLaw hdone⟩ fun {x} hx =>
      ⟨workLaw_congr (s := x) hx.1 rfl rfl rfl, railLaw_congr (s := x) hx.2 rfl ⟨rfl, rfl, rfl, rfl⟩⟩).2
  | interruptionIgnored i =>
    refine railLaw_of_activities hs ⟨rfl, rfl, rfl, rfl⟩ fun j => .inl ?_
    by_cases hj : j = i
    · subst hj; rw [channelOf_modifyChannel]
    · rw [modifyChannel_sitesElse s i _ j hj]
  | @interruptionDisposes i reason _ ha =>
    refine site (sitesElse_trans (modifyChannel_sitesElse s i _) (dispose_sitesElse _ i)) ?_ (by simp [takeInterruption])
    rcases ha with ha | ⟨task, ha⟩ | ha | ha <;> simp [ha, slotless]
  | @interruptionAbandons i reason _ ha =>
    obtain ⟨task, ha⟩ := ha
    have hel : sitesElse s (abandon (takeInterruption s i reason) i) i := takeInterruption_sitesElse s i reason
    exact site (sitesElse_trans hel (dispose_sitesElse _ i)) (by simp [ha, slotless]) (by simp [takeInterruption])
  | @interruptionAwaitsClaim i reason _ ha =>
    exact site (modifyChannel_sitesElse s i _) (by rcases ha with ha | ha <;> simp [ha, slotless]) rfl
  | @interruptionWithdraws i reason _ a ha =>
    exact withdraws_railLaw hs reason ha
  | freshGranted ha _ _ ht =>
    obtain ⟨u, rfl, ht⟩ := ht
    exact claimed_railLaw hs (by simp [ha, slotless]) ht
  | resumeGranted ha _ _ ht =>
    obtain ⟨u, rfl, ht⟩ := ht
    exact claimed_railLaw hs (by simp [ha, slotless]) ht
  | @freshRefused i _ ha _ _ ht =>
    obtain rfl | ⟨o, rfl⟩ := ht
    · exact disposed i (by simp [ha, slotless])
    · exact site (endDie_sitesElse s i _ _) (by simp [ha, slotless]) (by simp)
  | @resumeRefused i _ ha _ _ ht =>
    obtain rfl | rfl | ⟨g, rfl⟩ := ht
    · exact disposed i (by simp [ha, slotless])
    · exact site (notListed_sitesElse s i) (by simp [ha, slotless]) (by simp)
    · exact site (sitesElse_trans (modifyChannel_sitesElse s i _) (endDie_sitesElse _ i _ _)) (by simp [ha, slotless])
        (by simp)
  | @report _ i r _ _ ha => exact site (takeReport_sitesElse s i r) (by simp [ha, slotless]) (by simp)
  | @keyRequest i b _ ha =>
    exact site (setActivity_sitesElse (setDerivation s (queueKey s i b)) i _) (by simp [ha, slotless]) rfl
  | @keyDelivered i k _ ha =>
    exact site (takeKey_sitesElse (setDerivation s (beginNextKey s.lot s.derivation)) i k) (by simp [ha, slotless]) (by simp)
  | @keyWithdrawal i _ ha =>
    exact site (dispose_sitesElse (setDerivation s (withdrawKey s.derivation i)) i) (by simp [ha, slotless]) (by simp)
  | slotGranted ha hf => exact grant_railLaw hs _ hf (.inl ha)
  | slotAwaited ha => exact slotAwaited_railLaw hs ha _
  | @slotWithdrawal i _ ha =>
    have hfree : s.rail.pulses[i] = none := Classical.not_not.mp fun hx => by
      rcases ((railLaw_iff.mp hs).2 i).1 hx with h1 | h1 <;> rw [ha] at h1 <;> cases h1
    exact dispose_railLaw (withdrawn_railLaw hs i) hfree (getElem_set_same _ _ _)
  | @pulseEnd i _ hp =>
    refine scan_railLaw ?_
    split
    next ha =>
      have hstopped := stopPulse_railLaw hs hp
      rw [railLaw_iff] at hstopped ⊢
      refine ⟨hstopped.1, fun j => ?_⟩
      by_cases hj : j = i
      · subst hj
        have hact : (channelOf (stopPulse s j) j).activity = .pulsing := by simp [stopPulse, channelOf_setMirror, ha]
        refine slotSuits_of_none ⟨getElem_set_same _ _ _, ?_⟩ _
        refine Classical.not_not.mp fun hx => ?_
        rcases (hstopped.2 j).2 hx with h1 | h1 <;> rw [hact] at h1 <;> cases h1
      · rw [setActivity_sitesElse (stopPulse s i) i _ j hj]
        exact hstopped.2 j
    · exact stopPulse_railLaw hs hp
  | @pulseCut i _ ha hp =>
    have hwait : (stopPulse s i).rail.waiting[i] = none := Classical.not_not.mp fun hx => by
      rcases ((railLaw_iff.mp hs).2 i).2 hx with h1 | h1 <;> rw [ha] at h1 <;> cases h1
    obtain ⟨hw', hp', -⟩ := scan_of_not_waiting hwait
    exact dispose_railLaw (scan_railLaw (stopPulse_railLaw hs hp)) (hp'.trans (getElem_set_same _ _ _)) hw'
  | @cutFindsNone i _ ha hp =>
    have hwait : s.rail.waiting[i] = none := Classical.not_not.mp fun hx => by
      rcases ((railLaw_iff.mp hs).2 i).2 hx with h1 | h1 <;> rw [ha] at h1 <;> cases h1
    exact dispose_railLaw hs hp hwait
  | readingDecides v => exact read v
  | readingFrees v => exact railLaw_congr (read v) rfl ⟨rfl, rfl, rfl, rfl⟩
  | exchangeRequest => exact takeExchange_railLaw hs _
  | @exchangeStarts i _ ha =>
    exact takeExchange_railLaw (site (lotCheck_sitesElse s i) (by simp [ha, slotless]) (by simp)) i
  | response bytes => exact railLaw_of_goes hs (judgeResponse_goes s _ _ bytes) (by simp [SameSlots])
  | timeout i =>
    exact railLaw_of_goes (keep rfl rfl) (failSending_goes (countOn s i _) i false) (by simp [SameSlots])
  | _ => exact keep (by simp [clearAttention]) (by simp [clearAttention])

/-! ## The obligation -/

/-- Settles O54: the law of the rail goes through every effect, and the scan grants the first waiting sites of its order. -/
theorem scanGrantsInRoundRobinOrder : Obligations.ScanGrantsInRoundRobinOrder := by
  refine ⟨fun s t hs h => ?_, fun s t granted ht hgranted => ?_⟩
  · exact (step_keeps (P := workAndRail) (fun _ _ h => h)
      (fun _ _ _ h e => ⟨effect_workLaw h.1 e, effect_railLaw h.1 h.2 e⟩) hs h).2
  · have hg : granted = scanGranted s.rail := by rw [hgranted, scanGranted, grantedOf, scanOrder_eq]
    have hscan := scan_grants s
    rw [← hg, ← ht] at hscan
    obtain ⟨hframe, hrail, hothers, hsites⟩ := hscan
    refine ⟨hframe, hrail, hothers, fun j attempt hj hw => ?_⟩
    obtain ⟨h1, h2, h3⟩ := hsites j attempt hj hw
    refine ⟨h1, h2, fun a b hab ha => ?_⟩
    simp only [List.mem_cons, Prod.mk.injEq, List.not_mem_nil, or_false] at hab
    rw [h3, countGrant]
    rcases hab with ⟨rfl, rfl⟩ | ⟨rfl, rfl⟩ <;> simp [ha]

end Sys2Proof.Machine
end

section
/-!
The request unit's law (R164, R171, R182), kept by every step; the mirror write in progress, which only its own commands and the
resets touch (R178, R179); and the laws in the state after reset.
-/

namespace Sys2Proof.Machine

/-! ## The flags of the request unit -/

/-- The unit is busy exactly while a request is in progress. -/
def flagsAgree (s : State) : Prop := s.requests.busy = s.requests.inProgress.isSome

/-- The flags agree, and no notification waits at an idle unit. -/
def unitSettled (s : State) : Prop := flagsAgree s ∧ (s.requests.busy = false → s.requests.pendingNotify = false)

/-- The notification is as before, and flags that agreed agree. -/
def FlagsGo (s t : State) : Prop := t.requests.pendingNotify = s.requests.pendingNotify ∧ (flagsAgree s → flagsAgree t)

theorem flagsGo_of_same {s t : State} (h : t.requests = s.requests) : FlagsGo s t := by
  unfold FlagsGo flagsAgree
  rw [h]
  exact ⟨rfl, id⟩

theorem FlagsGo.trans {s t u : State} (h : FlagsGo s t) (g : FlagsGo t u) : FlagsGo s u :=
  ⟨g.1.trans h.1, fun hs => g.2 (h.2 hs)⟩

theorem answer_flagsGo (s : State) (code : AnswerCode) (detail : Word) (results : List Word) :
    FlagsGo s (answer s code detail results) := by
  unfold answer
  split
  · exact flagsGo_of_same rfl
  · refine ⟨?_, fun _ => ?_⟩
    · simp
    · simp [flagsAgree]

/-- An answer given after the blocks have been changed. -/
theorem answer_flagsGo_of_same {s t : State} (h : t.requests = s.requests) (code : AnswerCode) (detail : Word)
    (results : List Word) : FlagsGo s (answer t code detail results) :=
  (flagsGo_of_same h).trans (answer_flagsGo t code detail results)

theorem closingSteps_flagsGo (s : State) : FlagsGo s (closingSteps s) := by
  unfold closingSteps
  dsimp only
  exact answer_flagsGo_of_same (s := s) (by simp) _ _ _

theorem carryOut_flagsGo (code : Word) (s : State) : FlagsGo s (carryOut code s) := by
  unfold carryOut
  split
  · unfold openLot
    split
    · exact answer_flagsGo s _ _ _
    · exact answer_flagsGo_of_same rfl _ _ _
  · unfold closeLot
    split
    · exact answer_flagsGo s _ _ _
    · exact flagsGo_of_same rfl
    · split
      · exact closingSteps_flagsGo s
      · exact closingSteps_flagsGo s
      · exact flagsGo_of_same rfl
      · exact flagsGo_of_same rfl
  · unfold spoilIndex
    dsimp only
    repeat' split
    · exact answer_flagsGo s _ _ _
    · exact answer_flagsGo s _ _ _
    · exact answer_flagsGo s _ _ _
    · exact answer_flagsGo s _ _ _
    · exact answer_flagsGo_of_same rfl _ _ _
  · unfold listResume
    split
    · exact answer_flagsGo s _ _ _
    · exact answer_flagsGo_of_same (by simp) _ _ _
  · unfold validateProfile
    dsimp only
    split
    · exact answer_flagsGo s _ _ _
    · exact answer_flagsGo s _ _ _
  · unfold loadSecret
    dsimp only
    repeat' split
    · exact answer_flagsGo_of_same rfl _ _ _
    · exact answer_flagsGo_of_same rfl _ _ _
    · exact answer_flagsGo_of_same rfl _ _ _
    · exact answer_flagsGo_of_same (by simp) _ _ _
    · exact answer_flagsGo_of_same (by simp) _ _ _
  · unfold sealSecret
    split
    · exact answer_flagsGo_of_same (by simp) _ _ _
    · exact answer_flagsGo s _ _ _
  · unfold abortTouchdown
    split
    · split
      · exact flagsGo_of_same rfl
      · exact flagsGo_of_same (by rw [interruptWorking_eq]; rfl)
    · exact answer_flagsGo s _ _ _
  · unfold clearCounters
    exact answer_flagsGo_of_same (by simp) _ _ _
  · exact flagsGo_of_same rfl

theorem accept_flagsGo (s : State) : FlagsGo s (accept s) := ⟨rfl, fun _ => rfl⟩

/-- One examination leaves the notification as it is, and the flags in agreement. -/
theorem examineOnce_flagsGo (s : State) : FlagsGo s (examineOnce s) := by
  have atOnce (code : AnswerCode) (detail : Word) : FlagsGo s (answerAtOnce s code detail) := by
    unfold FlagsGo flagsAgree answerAtOnce
    simp
  unfold examineOnce
  split
  · exact flagsGo_of_same rfl
  · split
    · dsimp only
      split
      · exact (accept_flagsGo s).trans (carryOut_flagsGo _ _)
      · exact atOnce _ _
    · exact atOnce _ _

theorem cleared_flagsGo (s : State) :
    flagsAgree s → flagsAgree (setRequests s { s.requests with pendingNotify := false }) := id

/-- After the examination that an answer leads to, no notification waits at an idle unit (R171). -/
theorem reexamine_settled {s : State} (h : flagsAgree s) : unitSettled (reexamine s) := by
  unfold reexamine
  split
  · obtain ⟨hpending, hagree⟩ := examineOnce_flagsGo (setRequests s { s.requests with pendingNotify := false })
    exact ⟨hagree h, fun _ => hpending⟩
  next hnone =>
    refine ⟨h, fun hb => ?_⟩
    simpa [hb] using hnone

/-- An examination with no notification waiting. -/
theorem examine_settled {s : State} (h : flagsAgree s) (hp : s.requests.pendingNotify = false) : unitSettled (examine s) := by
  obtain ⟨hpending, hagree⟩ := examineOnce_flagsGo s
  unfold examine
  split
  · exact reexamine_settled (hagree h)
  · exact ⟨hagree h, fun _ => hpending.trans hp⟩

theorem examineIfPending_settled {s : State} (h : flagsAgree s) : unitSettled (examineIfPending s) := by
  unfold examineIfPending
  split
  · exact examine_settled (s := setRequests s { s.requests with pendingNotify := false }) h rfl
  next hp => exact ⟨h, fun _ => by simpa using hp⟩

theorem notifyUnit_settled {s : State} (hp : s.phase = .running) (h : unitSettled s) : unitSettled (notifyUnit s) := by
  unfold notifyUnit
  split
  next hm => exact examine_settled h.1 (h.2 (by simpa [mayExamine, hp] using hm))
  next hm =>
    have hbusy : s.requests.busy = true := by simpa [mayExamine, hp] using hm
    exact ⟨h.1, fun hb => by rw [setRequests_requests] at hb; simp [hbusy] at hb⟩

theorem closeIfDraining_settled {s : State} (h : unitSettled s) : unitSettled (closeIfDraining s) := by
  unfold closeIfDraining
  split
  · exact reexamine_settled ((closingSteps_flagsGo s).2 h.1)
  · exact h

theorem unitSettled_congr {s t : State} (h : unitSettled s) (hr : t.requests = s.requests) : unitSettled t := by
  unfold unitSettled flagsAgree
  rw [hr]
  exact h

/-! ## The law of the request unit -/

theorem requestLaw_of_running {s : State} (hp : s.phase = .running) (h : unitSettled s) : requestLaw s :=
  ⟨h.1, fun _ => h.2, fun hn => absurd hp hn⟩

theorem requestLaw_of_idle {s : State} (h : flagsAgree s) (hb : s.requests.busy = false) (hp : s.phase ≠ .running)
    (ht : s.touchdown.state = .idle) (hl : s.lot.state = .noLot) : requestLaw s :=
  ⟨h, fun hn => absurd hn hp, fun _ => ⟨hb, ht, hl⟩⟩

theorem settled_of_running {s : State} (h : requestLaw s) (hp : s.phase = .running) : unitSettled s := ⟨h.1, h.2.1 hp⟩

/-- The law reads the request unit, the phase, and the states of the touchdown and of the lot. -/
theorem requestLaw_congr {s t : State} (h : requestLaw s) (hr : t.requests = s.requests) (hp : t.phase = s.phase)
    (ht : t.touchdown.state = s.touchdown.state) (hl : t.lot.state = s.lot.state) : requestLaw t := by
  unfold requestLaw
  rw [hr, hp, ht, hl]
  exact h

/-- A touchdown is in progress only while the part runs. -/
theorem running_of_touchdown {s : State} (h : requestLaw s) (ht : s.touchdown.state ≠ .idle) : s.phase = .running :=
  Classical.not_not.mp fun hp => ht (h.2.2 hp).2.1

theorem takeFall_settled {s : State} (h : unitSettled s) : unitSettled (takeFall s) := by
  unfold takeFall
  dsimp only
  split
  · exact h
  · exact closeIfDraining_settled h
  · unfold fallInActive
    repeat' split
    · exact h
    · exact h
    · exact unitSettled_congr h (by rw [interruptWorking_eq]; rfl)
  · exact h

theorem considerFrame_settled {s : State} (h : unitSettled s) (late : SiteSet) : unitSettled (considerFrame s late) := by
  unfold considerFrame
  dsimp only
  split
  · exact unitSettled_congr h (forSites_keeps (fun s => s.requests) (fun s i => by simp) _ _)
  · exact closeIfDraining_settled h

theorem finishFrame_settled {s : State} (h : unitSettled s) (f : Fin 2) : unitSettled (finishFrame s f) := by
  have hleft : unitSettled (leaveActive (raise (writeFinish s f) .frameDone)) :=
    unitSettled_congr h (by simp [leaveActive_eq])
  have hanswered {u : State} (hu : unitSettled u) : FlagsGo u (answerAbort u f) := by
    unfold answerAbort
    split
    · exact answer_flagsGo u _ _ _
    · exact flagsGo_of_same rfl
  have hflags := (hanswered hleft).2 hleft.1
  unfold finishFrame
  dsimp only
  split
  · exact reexamine_settled ((closingSteps_flagsGo _).2 hflags)
  · split
    · exact reexamine_settled hflags
    next habort =>
      rw [answerAbort, if_neg habort]
      exact hleft

/-- Every effect keeps the law of the request unit. -/
theorem effect_requestLaw {c : Instr} {s t : State} (hs : requestLaw s) (h : Effect c s t) : requestLaw t := by
  have keep {t : State} (hr : t.requests = s.requests) (hp : t.phase = s.phase) (ht : t.touchdown = s.touchdown)
      (hl : t.lot = s.lot) : requestLaw t := requestLaw_congr hs hr hp (by rw [ht]) (by rw [hl])
  have claimed {t : State} (hr : t.requests = s.requests) (hp : t.phase = s.phase) (ht : t.touchdown = s.touchdown)
      (hl : LotMove s.lot t.lot) : requestLaw t := requestLaw_congr hs hr hp (by rw [ht]) hl.state
  cases h with
  | powerOnReset => exact requestLaw_of_idle rfl rfl (by simp [State.reset]) rfl rfl
  | startupEnd hp =>
    refine requestLaw_of_running (by simp [startedUp]) (examineIfPending_settled ?_)
    rw [startedUp_eq]
    exact hs.1
  | softReset order =>
    refine requestLaw_of_idle ?_ ?_ ?_ ?_ ?_
    · simp [flagsAgree, softlyReset, resetStepThree, resetStepOne, discardRequest]
    · simp [softlyReset, resetStepThree, resetStepOne, discardRequest]
    · simp [softlyReset]
    · simp [softlyReset, resetStepThree, resetStepOne, resetTouchdown, TouchdownController.afterPowerOn]
    · exact (softlyReset_lot order s).1
  | softResetEnd hp =>
    refine requestLaw_of_running (by simp [softResetEnded]) (examineIfPending_settled ?_)
    rw [softResetEnded_eq]
    exact hs.1
  | notify value =>
    by_cases hp : s.phase = .running
    · exact requestLaw_of_running (by simpa using hp) (notifyUnit_settled hp (settled_of_running hs hp))
    · have hwaits : notifyUnit s = setRequests s { s.requests with pendingNotify := true } := by simp [notifyUnit, mayExamine, hp]
      rw [hwaits]
      exact ⟨hs.1, fun hn => absurd hn hp, hs.2.2⟩
  | request _ hposted =>
    refine requestLaw_of_running (by simpa using hposted.1) (reexamine_settled ?_)
    exact (carryOut_flagsGo _ _).2 rfl
  | unknown hm =>
    have hm' : s.phase = .running ∧ s.requests.busy = false := by simpa [mayExamine] using hm
    obtain ⟨hagree, hpending⟩ := settled_of_running hs hm'.1
    refine requestLaw_of_running (by simpa using hm'.1) ?_
    unfold answerAtOnce unitSettled flagsAgree
    simpa using ⟨hagree, hpending⟩
  | rise hp =>
    refine requestLaw_of_running ?_ ?_
    · simpa using hp
    · exact unitSettled_congr (settled_of_running hs hp) (by simp)
  | fall hp =>
    exact requestLaw_of_running (by simpa using hp) (takeFall_settled (s := { s with contactLine := false }) (settled_of_running hs hp))
  | settleExpiry m _ hp =>
    refine requestLaw_of_running (by simpa using hp) (considerFrame_settled ?_ _)
    exact notifyUnit_settled hp (settled_of_running hs hp)
  | siteDone => exact keep rfl rfl rfl rfl
  | frameDone ht =>
    have hp := running_of_touchdown hs (by simp [ht])
    exact requestLaw_of_running (by simpa using hp) (finishFrame_settled (s := setActivity s _ _) (settled_of_running hs hp) _)
  | freshGranted _ _ _ ht =>
    obtain ⟨u, rfl, rfl | rfl⟩ := ht
    · exact claimed rfl rfl rfl (afterFreshClaim_moves _)
    · exact claimed (by simp) (by simp) (by simp) (by simpa using afterFreshClaim_moves _)
  | resumeGranted _ _ _ ht =>
    obtain ⟨u, rfl, rfl | rfl⟩ := ht
    · exact requestLaw_congr hs rfl rfl rfl rfl
    · exact requestLaw_congr hs (by simp) (by simp) (by simp) (by simp [updateEntry])
  | freshRefused _ _ ht =>
    obtain rfl | ⟨o, rfl⟩ := ht <;> exact keep (by simp) (by simp) (by simp) (by simp)
  | resumeRefused _ _ ht =>
    obtain rfl | rfl | ⟨g, rfl⟩ := ht <;> exact keep (by simp) (by simp) (by simp) (by simp)
  | report => exact requestLaw_congr hs (by simp) (by simp) (by simp) (takeReport_lot _ _ _).state
  | readingFrees v hp =>
    have hidle := hs.2.2 (by simp [hp])
    refine requestLaw_of_idle ?_ ?_ (by simp) ?_ ?_
    · simpa [flagsAgree] using hs.1
    · simpa using hidle.1
    · simpa using hidle.2.1
    · simpa using hidle.2.2
  | pulseEnd =>
    split
    · exact keep (by simp) (by simp) (by simp) (by simp)
    · exact keep (by simp) (by simp) (by simp) (by simp)
  | _ =>
    exact keep (by simp [clearAttention, takeInterruption]) (by simp [clearAttention, takeInterruption])
      (by simp [clearAttention, takeInterruption]) (by simp [clearAttention, takeInterruption])

/-- Settles O9: every effect keeps the law of the request unit. -/
theorem requestUnitLawIsKept : Obligations.RequestUnitLawIsKept := fun _ _ hs h =>
  step_keeps (P := requestLaw) (fun _ _ h => h) (fun _ _ _ h e => effect_requestLaw h e) hs h

/-! ## The mirror write in progress (R178, R179) -/

/-- The write in progress, its count and the groups it keeps are as before. -/
def keepsWrite (m m' : MirrorWriter) : Prop := m'.writing = m.writing ∧ m'.count = m.count ∧ m'.snapshot = m.snapshot

theorem keepsWrite_of_eq {m m' : MirrorWriter} (h : m' = m) : keepsWrite m m' := by subst h; exact ⟨rfl, rfl, rfl⟩

/-- A trigger keeps the write in progress, or begins one with the groups as they stand. -/
theorem triggerMirror_write {s : State} {m : MirrorWriter} (h : keepsWrite s.mirror m) :
    keepsWrite s.mirror (triggerMirror (setMirror s m)).mirror ∨
      s.mirror.writing = false ∧ (triggerMirror (setMirror s m)).mirror.snapshot = mirrorGroups s := by
  obtain ⟨hidle, hbusy⟩ := triggerMirror_triggers (setMirror s m)
  cases hw : s.mirror.writing with
  | true =>
    rw [hbusy (h.1.trans hw)]
    exact .inl h
  | false =>
    rw [hidle (h.1.trans hw)]
    exact .inr ⟨rfl, (beginMirrorWrite_begins _).2.1⟩

/-- What a command that is neither a reset nor the end of a write makes of the write in progress. -/
theorem effect_write {c : Instr} {s t : State} (h : Effect c s t) :
    (keepsWrite s.mirror t.mirror ∨ s.mirror.writing = false ∧ t.mirror.snapshot = mirrorGroups s) ∨
      (∃ early, c = .mirrorWriteEnd early) ∧ s.mirror.writing = true ∨
      ((∃ order, c = .softReset order) ∨ ∃ p b, c = .powerOnReset p b) ∧ t.mirror.writing = false := by
  have keep {t : State} (hm : t.mirror = s.mirror) :
      (keepsWrite s.mirror t.mirror ∨ s.mirror.writing = false ∧ t.mirror.snapshot = mirrorGroups s) ∨
        (∃ early, c = .mirrorWriteEnd early) ∧ s.mirror.writing = true ∨
        ((∃ order, c = .softReset order) ∨ ∃ p b, c = .powerOnReset p b) ∧ t.mirror.writing = false :=
    .inl (.inl (keepsWrite_of_eq hm))
  have counted : keepsWrite s.mirror (countPulse s.mirror) := by simp [keepsWrite]
  cases h with
  | powerOnReset p b => exact .inr (.inr ⟨.inr ⟨p, b, rfl⟩, rfl⟩)
  | softReset order =>
    exact .inr (.inr ⟨.inl ⟨order, rfl⟩, by simp [softlyReset, resetStepThree, MirrorWriter.afterReset]⟩)
  | mirrorWriteEnd early hw => exact .inr (.inl ⟨⟨early, rfl⟩, hw⟩)
  | mirrorWriteAgain early hw => exact .inr (.inl ⟨⟨early, rfl⟩, hw⟩)
  | mirrorNow => exact .inl (triggerMirror_write (m := s.mirror) (keepsWrite_of_eq rfl))
  | intervalExpiry => exact .inl (triggerMirror_write ⟨rfl, rfl, rfl⟩)
  | countdownZero => exact .inl (triggerMirror_write ⟨rfl, rfl, rfl⟩)
  | pulseEnd =>
    refine .inl (.inl ?_)
    split
    · simpa [stopPulse] using counted
    · simpa [stopPulse] using counted
  | pulseCut => exact .inl (.inl (by simpa [stopPulse] using counted))
  | freshGranted _ _ _ ht => obtain ⟨u, rfl, rfl | rfl⟩ := ht <;> exact keep (by simp)
  | resumeGranted _ _ _ ht => obtain ⟨u, rfl, rfl | rfl⟩ := ht <;> exact keep (by simp)
  | freshRefused _ _ ht => obtain rfl | ⟨o, rfl⟩ := ht <;> exact keep (by simp)
  | resumeRefused _ _ ht => obtain rfl | rfl | ⟨g, rfl⟩ := ht <;> exact keep (by simp)
  | _ => exact keep (by simp [clearAttention, takeInterruption, startedUp, softResetEnded])

/-- Settles O10: what each effect makes of the write in progress. -/
theorem mirrorSnapshotIsOfOneMoment : Obligations.MirrorSnapshotIsOfOneMoment := by
  refine ⟨fun c s t hw h ht => ?_, fun early s t hw hp h => ?_, fun c s t hw hend hsoft hpower h => ?_⟩
  · rcases effect_write (effect_of_exec h) with (hk | hb) | ⟨-, hw'⟩ | ⟨-, ht'⟩
    · rw [hk.1, hw] at ht; cases ht
    · exact hb.2
    · rw [hw] at hw'; cases hw'
    · rw [ht] at ht'; cases ht'
  · have hagain : t = beginMirrorWrite
        (setMirror (endMirrorWrite s early) { (endMirrorWrite s early).mirror with writePending := false }) := by
      change Host.Outcome.next (if s.mirror.writing then _ else s) = _ at h
      cases h
      rw [if_pos hw]
      exact if_pos hp
    have hgroups : mirrorGroups (setMirror (endMirrorWrite s early)
        { (endMirrorWrite s early).mirror with writePending := false }) = mirrorGroups s := rfl
    obtain ⟨h1, h2, h3, h4, -⟩ := beginMirrorWrite_begins
      (setMirror (endMirrorWrite s early) { (endMirrorWrite s early).mirror with writePending := false })
    rw [← hagain] at h1 h2 h3 h4
    exact ⟨h1, h4, h3, h2.trans hgroups⟩
  · rcases effect_write (effect_of_exec h) with (hk | hb) | ⟨⟨early, rfl⟩, -⟩ | ⟨⟨order, rfl⟩ | ⟨p, b, rfl⟩, -⟩
    · exact ⟨hk.1.trans hw, hk.2⟩
    · rw [hw] at hb; cases hb.1
    · exact absurd rfl (hend early)
    · exact absurd rfl (hsoft order)
    · exact absurd rfl (hpower p b)

/-! ## The state after reset -/

/-- Settles O12: after reset every block is empty, and no channel works. -/
theorem resetMeetsTheLaws : Obligations.ResetMeetsTheLaws := by
  have hrest (i : Site) : ¬ works (channelOf State.reset i) := by
    have : channelOf State.reset i = SiteChannel.afterPowerOn := by simp [channelOf, State.reset]
    rw [this]
    exact not_works_of_resting rfl rfl
  refine ⟨reset_ram_wf, ?_, ?_, ?_, ?_, workLaw_of_none_works hrest, ?_, ?_, ?_, ?_, rfl⟩
  · exact fun h => absurd rfl h
  · exact fun h => absurd rfl h
  · exact Nat.zero_le _
  · exact fun h => absurd rfl h
  · exact holdingLaw_of_reset rfl (.of_none rfl (fun _ => rfl) rfl)
  · exact railLaw_of_empty (Nat.zero_le _) rfl fun i => by simp [State.reset, RailController.afterPowerOn]
  · simp [holdoffLaw, State.reset, TouchdownController.afterPowerOn]
  · exact requestLaw_of_idle rfl rfl (by simp [State.reset]) rfl rfl

end Sys2Proof.Machine
end

section
/-!
Resets, registers, attention and host writes: what power-on reset leaves, how a start-up and a soft reset end (R181, R182), how
the registers read (R174 to R177), and which bytes a host write changes (R155).
-/

namespace Sys2Proof.Machine

/-! ## The identity block (R159) -/

theorem readRam_publishSecretState {s : State} (h : RamOk s) :
    readRam (publishSecretState s) atSecretState = s.derivation.state.code ∧
      readRam (publishSecretState s) atCheckValue = s.derivation.checkValue := by
  have hcheck := writeRam_ok h atCheckValue s.derivation.checkValue
  constructor
  · exact readRam_writeRam hcheck (by decide) _
  · rw [publishSecretState, readRam_writeRam_of_out hcheck (by decide)]
    exact readRam_writeRam h (by decide) _

theorem publishSecretState_outside {s : State} (h : RamOk s) : ramOutside s (publishSecretState s) [(0x10, 8)] := by
  have hcheck := writeRam_ok h atCheckValue s.derivation.checkValue
  refine ramOutside_trans (t := writeRam s atCheckValue s.derivation.checkValue) ?_ ?_
  · refine ramOutside_mono (ramOutside_writeRam h _ _) fun a ha => ?_
    have := ha _ (List.mem_singleton_self _)
    simp only [List.mem_singleton, forall_eq, atCheckValue]
    omega
  · refine ramOutside_mono (ramOutside_writeRam hcheck _ _) fun a ha => ?_
    have := ha _ (List.mem_singleton_self _)
    simp only [List.mem_singleton, forall_eq, atSecretState]
    omega

/-- The last words of the block are the layout version and zeros. -/
theorem writeIdentity_writes {s : State} (h : RamOk s) :
    identityWritten s (writeIdentity s) ∧ ramOutside s (writeIdentity s) [(0x00, 0x40)] := by
  have hhead := writeRamWords_ok h atPartCode [partCode, 1, natWord (fittedCount s)]
  have hsecret := publishSecretState_ok hhead
  have htail := writeRamWords_ok hsecret atLayoutVersion (1 :: List.replicate 9 0)
  obtain ⟨hstate, hcheck⟩ := readRam_publishSecretState hhead
  have small : atPartCode + 4 * [partCode, 1, natWord (fittedCount s)].length ≤ Config.ramBytes := by
    simp [atPartCode, Config.ramBytes]
  have secret (a : Nat) (ha : a = 0x10 ∨ a = 0x14) : readRam (writeIdentity s) a =
      readRam (publishSecretState (writeRamWords s atPartCode [partCode, 1, natWord (fittedCount s)])) a := by
    rw [writeIdentity, readRam_writeRam_of_out htail (by simp only [atSignature]; omega),
      readRam_writeRamWords_of_out hsecret (by simp only [atLayoutVersion, List.length_cons, List.length_replicate]; omega)]
  have tail (k : Nat) (hk : k < 10) : readRam (writeIdentity s) (0x18 + 4 * k) = (1 :: List.replicate 9 (0 : Word))[k] := by
    rw [writeIdentity, readRam_writeRam_of_out htail (by simp only [atSignature]; omega)]
    exact readRam_writeRamWords_at (ws := 1 :: List.replicate 9 0) hsecret k rfl hk (by decide)
  have head (k : Nat) (hk : k < 3) : readRam (writeIdentity s) (4 + 4 * k) = [partCode, 1, natWord (fittedCount s)][k] := by
    rw [writeIdentity, readRam_writeRam_of_out htail (by simp only [atSignature]; omega),
      readRam_writeRamWords_of_out hsecret (by simp only [atLayoutVersion]; omega),
      readRam_of_ramOutside (publishSecretState_outside hhead) (by simp; omega)]
    exact readRam_writeRamWords_at (ws := [partCode, 1, natWord (fittedCount s)]) h k rfl hk small
  refine ⟨⟨readRam_writeRam htail (by decide) _, head 0 (by omega), head 1 (by omega), head 2 (by omega), ?_, ?_,
    tail 0 (by omega), fun a h1 h2 => ?_⟩, ?_⟩
  · exact (secret 0x10 (.inl rfl)).trans (hstate.trans (by simp))
  · exact (secret 0x14 (.inr rfl)).trans (hcheck.trans (by simp))
  · have hzero : readRam (writeIdentity s) (0x18 + 4 * ((a - 0x18) / 4)) = 0 := by
      obtain ⟨k, hk⟩ : ∃ k, (a - 0x18) / 4 = k + 1 := ⟨(a - 0x18) / 4 - 1, by omega⟩
      rw [tail _ (by omega)]
      simp only [hk, List.getElem_cons_succ, List.getElem_replicate]
    have hsplit : a = 0x18 + 4 * ((a - 0x18) / 4) + (a - 0x18) % 4 := by omega
    rw [hsplit]
    exact readByte_of_readRam_zero hzero (Nat.mod_lt _ (by decide))
  · have cover {s t : State} {r : Nat × Nat} (hr : r.1 + r.2 ≤ 0x40) (h : ramOutside s t [r]) :
        ramOutside s t [(0x00, 0x40)] := ramOutside_mono h fun a ha => by
      have := ha _ (List.mem_singleton_self _)
      simp only [List.mem_singleton, forall_eq]
      omega
    refine ramOutside_trans (cover (by simp [atPartCode]) (ramOutside_writeRamWords h atPartCode [partCode, 1, natWord (fittedCount s)])) ?_
    refine ramOutside_trans (cover (by decide) (publishSecretState_outside hhead)) ?_
    refine ramOutside_trans (cover (by decide) (ramOutside_writeRamWords hsecret atLayoutVersion (1 :: List.replicate 9 0))) ?_
    exact cover (by decide) (ramOutside_writeRam htail atSignature readySignature)

/-- The block depends on the straps and on what is published of the secret. -/
theorem identityWritten_congr {s s' t t' : State} (h : identityWritten s t) (hstraps : s'.straps = s.straps)
    (hstate : s'.derivation.state = s.derivation.state) (hcheck : s'.derivation.checkValue = s.derivation.checkValue)
    (ht : t'.ram = t.ram) : identityWritten s' t' := by
  unfold identityWritten readRam at h ⊢
  rw [hstraps, hstate, hcheck, ht]
  exact h

/-! ## Resets -/

/-- Settles O13: the state after reset, field by field. -/
theorem powerOnResetValues : Obligations.PowerOnResetValues := by
  intro population secretLoad s
  have hchannel (i : Site) : (Vector.replicate 16 SiteChannel.afterPowerOn)[i] = SiteChannel.afterPowerOn := by simp
  have hport (i : Site) : (Vector.replicate 16 LinkPort.afterPowerOn)[i] = LinkPort.afterPowerOn := by simp
  refine ⟨_, rfl, fun _ => rfl, rfl, rfl, rfl, rfl, rfl, ⟨rfl, rfl, rfl, rfl, rfl, rfl, rfl, rfl, rfl, rfl, rfl⟩, rfl, rfl, rfl, rfl,
    rfl, ⟨rfl, rfl, rfl, rfl, rfl, rfl, rfl, rfl, rfl, rfl, rfl, rfl, rfl, rfl, rfl, rfl, rfl⟩, fun i => ?_, fun i => ?_,
    ⟨rfl, rfl, rfl, rfl, fun i => ?_⟩, rfl, ⟨rfl, rfl, rfl, rfl, rfl, rfl, rfl⟩, rfl, rfl⟩
  · refine ⟨SiteChannel.afterPowerOn, (hchannel i).symm, rfl, rfl, rfl, rfl, rfl, rfl, rfl, rfl, rfl, rfl, rfl, rfl, rfl, rfl, rfl,
      rfl, rfl, rfl, rfl, rfl, rfl, rfl, fun f => ?_, rfl⟩
    simp [SiteChannel.afterPowerOn]
  · have hp : portOf { State.reset with
        straps := { population := population, secretLoad := secretLoad }, contactLine := s.contactLine, pending := s.pending } i =
        LinkPort.afterPowerOn := hport i
    simp [hp, LinkPort.afterPowerOn, LinkCounters.zero]
  · simp [State.reset, RailController.afterPowerOn]

/-- The examination at the end of a start-up or a soft reset is that of a notification, in a part that runs and is idle. -/
theorem examineIfPending_eq {u : State} (hp : u.phase = .running) (hb : u.requests.busy = false) :
    (u.requests.pendingNotify = false → examineIfPending u = u) ∧
      (u.requests.pendingNotify = true → examineIfPending u =
        notifyUnit { u with requests := { u.requests with pendingNotify := false } }) := by
  refine ⟨fun h => by simp [examineIfPending, h], fun h => ?_⟩
  rw [notifyUnit_of_idle (s := { u with requests := { u.requests with pendingNotify := false } }) hp hb]
  simp [examineIfPending, h, setRequests]

/-- Settles O14: the identity block, the level of CONTACT, and the examination. -/
theorem startupEndPublishesTheIdentity : Obligations.StartupEndPublishesTheIdentity := by
  refine ⟨rfl, fun s hphase hram hlaw => ?_⟩
  have hidle := (hlaw.2.2 (by simp [hphase])).1
  obtain ⟨hwritten, houtside⟩ := writeIdentity_writes hram
  have hexec : exec .startupEnd s = .next (examineIfPending (startedUp s)) := congrArg _ (if_pos hphase)
  have heq := startedUp_eq s
  have hrun : (startedUp s).phase = .running := by rw [heq]
  have hram' : (startedUp s).ram = (writeIdentity s).ram := by rw [heq]
  have hreq : (startedUp s).requests = s.requests := by rw [heq]
  obtain ⟨hnone, hwaits⟩ := examineIfPending_eq hrun (by rw [hreq]; exact hidle)
  rw [hreq] at hnone hwaits
  refine ⟨startedUp s, by rw [hram']; exact heq, identityWritten_congr hwritten rfl rfl rfl hram',
    ramOutside_congr houtside rfl hram', fun hn => ?_, fun hn => ?_⟩
  · rw [hexec, hnone hn]
  · rw [hexec, hwaits hn, hreq]
    rfl

/-- Settles O16: the attention, the hold, CONTACT and the examination. -/
theorem softResetEndRaisesResetDone : Obligations.SoftResetEndRaisesResetDone := by
  intro s u hphase hlaw hu
  have hidle := (hlaw.2.2 (by simp [hphase])).1
  rw [← softResetEnded_eq] at hu
  have hexec : exec .softResetEnd s = .next (examineIfPending u) := by
    rw [hu]
    exact congrArg _ (if_pos hphase)
  have hrun : u.phase = .running := by rw [hu]; rfl
  have hreq : u.requests = s.requests := by rw [hu]; rfl
  obtain ⟨hnone, hwaits⟩ := examineIfPending_eq hrun (by rw [hreq]; exact hidle)
  rw [hreq] at hnone hwaits
  refine ⟨fun hn => ?_, fun hn => ?_⟩
  · rw [hexec, hnone hn]
  · rw [hexec, hwaits hn, hreq]
    rfl

/-! ## Registers and attention -/

theorem getLsbD_clearAttention (s : State) (value : Word) {k : Nat} (hk : k < 6) :
    (clearAttention s value).attention.getLsbD k = (s.attention.getLsbD k && !value.getLsbD k) := by
  simp [clearAttention, hk]

theorem getLsbD_raise (s : State) (c : AttentionCause) (k : Nat) :
    (raise s c).attention.getLsbD k = (s.attention.getLsbD k || decide (k = c.bit)) := by
  have hbit : c.bit < 6 := by cases c <;> decide
  rw [raise, BitVec.getLsbD_or, BitVec.getLsbD_twoPow]
  simp [hbit, eq_comm]

theorem interruptLine_iff (s : State) :
    interruptLine s = true ↔ ∃ k, k < 6 ∧ s.attention.getLsbD k = true ∧ s.enables.getLsbD k = true := by
  have hline : interruptLine s = true ↔ s.attention &&& s.enables ≠ 0 := by simp [interruptLine]
  rw [hline]
  constructor
  · intro hne
    by_contra hnone
    refine hne (BitVec.eq_of_getLsbD_eq fun k hk => ?_)
    have hpair : ¬ (s.attention.getLsbD k = true ∧ s.enables.getLsbD k = true) := fun h => hnone ⟨k, hk, h⟩
    rw [BitVec.getLsbD_and]
    simpa using hpair
  · rintro ⟨k, -, ha, he⟩ hzero
    have hbit : (s.attention &&& s.enables).getLsbD k = true := by rw [BitVec.getLsbD_and, ha, he]; rfl
    rw [hzero] at hbit
    simp at hbit

/-- Settles O17: each operation on ATTENTION, bit by bit. -/
theorem interruptLineFollowsAttentionAndEnables : Obligations.InterruptLineFollowsAttentionAndEnables :=
  ⟨rfl, fun value s => ⟨clearAttention s value, rfl, rfl, fun _ => getLsbD_clearAttention s value⟩, fun _ _ => rfl,
    fun c s => ⟨rfl, fun k _ => getLsbD_raise s c k⟩, interruptLine_iff⟩

theorem getLsbD_readControl (s : State) {k : Nat} (hk : k < 32) : (readControl s).getLsbD k =
    ((decide (k = 0) && decide (s.phase = .softReset)) || (decide (8 ≤ k) && s.enables.getLsbD (k - 8))) := by
  have hflag : (if s.phase = .softReset then (1 : Word) else 0).getLsbD k = (decide (k = 0) && decide (s.phase = .softReset)) := by
    split
    next h => simp [h, BitVec.getLsbD_one]
    next h => simp [h]
  rw [readControl, BitVec.getLsbD_or, hflag, BitVec.getLsbD_shiftLeft, BitVec.getLsbD_setWidth, Bool.or_comm]
  have hlow : (!decide (k < 8)) = decide (8 ≤ k) := by simp only [← decide_not, Nat.not_lt]
  simp [hk, hlow, show k - 8 < 32 by omega]

theorem getLsbD_readStraps (s : State) {k : Nat} (hk : k < 32) : (readStraps s).getLsbD k =
    (s.straps.population.getLsbD k || (decide (k = 8) && s.straps.secretLoad)) := by
  have hflag : (if s.straps.secretLoad then (0x100 : Word) else 0).getLsbD k = (decide (k = 8) && s.straps.secretLoad) := by
    have hpow : (0x100 : Word) = BitVec.twoPow 32 8 := by decide
    split
    next h => rw [hpow, BitVec.getLsbD_twoPow]; simp [h, eq_comm]
    next h => simp [h]
  rw [readStraps, BitVec.getLsbD_or, hflag, BitVec.getLsbD_setWidth]
  simp [hk]

/-- Settles O18: each register, bit by bit. -/
theorem registersReadAsTheTableSays : Obligations.RegistersReadAsTheTableSays := by
  refine ⟨fun _ _ _ => rfl, fun s => ⟨rfl, fun k hk => getLsbD_readControl s hk, rfl, fun k hk => ?_,
    fun k hk => getLsbD_readStraps s hk⟩⟩
  show (s.attention.setWidth 32).getLsbD k = _
  rw [BitVec.getLsbD_setWidth]
  simp [hk]

/-! ## Host writes (R155) -/

theorem byteOf_readRam (s : State) (a : Nat) {k : Nat} (hk : k < 4) : byteOf (readRam s a) k = readByte s.ram (a + k) := by
  rw [readRam, readWord, byteOf_bytes _ _ _ _ hk]
  obtain rfl | rfl | rfl | rfl : k = 0 ∨ k = 1 ∨ k = 2 ∨ k = 3 := by omega
  all_goals rfl

theorem byteOf_laneMask (lanes : BitVec 4) {k : Nat} (hk : k < 4) :
    byteOf (laneMask lanes) k = if lanes.getLsbD k then 0xFF else 0 := by
  rw [laneMask, byteOf_bytes _ _ _ _ hk]
  obtain rfl | rfl | rfl | rfl : k = 0 ∨ k = 1 ∨ k = 2 ∨ k = 3 := by omega
  all_goals rfl

/-- Each byte of the merged word is the new one where its lane is named, and the old one elsewhere. -/
theorem byteOf_mergeLanes (lanes : BitVec 4) (old new : Word) {k : Nat} (hk : k < 4) :
    byteOf (mergeLanes lanes old new) k = if lanes.getLsbD k then byteOf new k else byteOf old k := by
  have hmask (j : Nat) (hj : j < 8) : (laneMask lanes).getLsbD (8 * k + j) = lanes.getLsbD k := by
    have hbyte : (byteOf (laneMask lanes) k).getLsbD j = lanes.getLsbD k := by
      rw [byteOf_laneMask lanes hk]
      cases lanes.getLsbD k
      · simp
      · have hall : ∀ j : Fin 8, (0xFF : Byte).getLsbD j = true := by decide
        exact hall ⟨j, hj⟩
    rw [byteOf, BitVec.getLsbD_extractLsb'] at hbyte
    simpa [hj] using hbyte
  refine BitVec.eq_of_getLsbD_eq fun j hj => ?_
  rw [byteOf, BitVec.getLsbD_extractLsb', mergeLanes, BitVec.getLsbD_or, BitVec.getLsbD_and, BitVec.getLsbD_and,
    BitVec.getLsbD_not, hmask j hj]
  cases lanes.getLsbD k <;> simp [byteOf, hj, show 8 * k + j < 32 by omega]

/-- Settles O19: the word written holds the merged bytes. -/
theorem hostWriteChangesTheNamedBytes : Obligations.HostWriteChangesTheNamedBytes := by
  refine ⟨fun s a k hk => byteOf_readRam s a hk, fun offset lanes value s hram hin => ?_⟩
  refine ⟨writeRam s (offset.toNat / 4 * 4) (mergeLanes lanes (readRam s (offset.toNat / 4 * 4)) value), ?_, rfl,
    fun k hk => ?_, ramOutside_writeRam hram _ _⟩
  · show execHostRamWrite offset lanes value s = _
    exact if_pos hin
  · have hword : offset.toNat / 4 * 4 + 4 ≤ Config.ramBytes := by simp only [Config.ramBytes]; omega
    rw [writeRam, readByte_writeWord_in hram hk hword, byteOf_mergeLanes _ _ _ hk, byteOf_readRam s _ hk]
    rfl

end Sys2Proof.Machine
end

section
/-!
The status mirror and the request slot: what a trigger does (R178), what the end of a write shows (R179), and which command an
examination of the slot is (R165).
-/

namespace Sys2Proof.Machine

/-! ## The triggers (R178) -/

theorem mirrorMode_lt (w : Word) : mirrorMode w ≤ 2 := by
  unfold mirrorMode
  split <;> omega

/-- The beginning of a write, in the words of the rules. -/
theorem beginMirrorWrite_writes {s : State} (h : RamOk s) :
    (beginMirrorWrite s).mirror = { s.mirror with
      count := s.mirror.count + 1
      intervalTimer := if mirrorMode (readRam s atMirrorMode) = 1 then some (max 1 (min 60000 (readRam s atMirrorInterval).toNat))
        else none
      countdown := if mirrorMode (readRam s atMirrorMode) = 2 then some (max 1 (min 4096 (readRam s atMirrorInterval).toNat))
        else none
      writing := true
      snapshot := mirrorGroups s } ∧
    readRam (beginMirrorWrite s) 0x4000 = s.mirror.count + 1 ∧
    readRam (beginMirrorWrite s) 0x4008 = BitVec.ofNat 32 (mirrorMode (readRam s atMirrorMode)) ∧
    ramOutside s (beginMirrorWrite s) [(0x4000, 4), (0x4008, 4)] := by
  have hset (m : MirrorWriter) : RamOk (setMirror s m) := h
  refine ⟨?_, ?_, ?_, ?_⟩
  · rw [← clampNat_eq_max_min (by decide), ← clampNat_eq_max_min (by decide)]
    rfl
  · rw [beginMirrorWrite, readRam_writeRam_of_out (writeRam_ok (hset _) _ _) (by decide)]
    exact readRam_writeRam (hset _) (by decide) _
  · exact readRam_writeRam (writeRam_ok (hset _) _ _) (by decide) _
  · refine ramOutside_trans (ramOutside_mono (ramOutside_writeRam (hset _) _ _) fun a ha r hr => ?_)
      (ramOutside_mono (ramOutside_writeRam (writeRam_ok (hset _) _ _) _ _) fun a ha r hr => ?_)
    · obtain rfl := List.mem_singleton.mp hr
      exact ha _ (by simp)
    · obtain rfl := List.mem_singleton.mp hr
      exact ha _ (by simp)

/-- The three commands that trigger a write. -/
theorem exec_trigger {c : Instr} {s : State} {m : MirrorWriter}
    (h : c = .mirrorNow ∧ s.phase = .running ∧ m = s.mirror ∨
      c = .mirrorIntervalExpiry ∧ s.mirror.intervalTimer.isSome = true ∧ m = { s.mirror with intervalTimer := none } ∨
      c = .mirrorCountdownZero ∧ s.mirror.zeroReached ≠ 0 ∧
        m = { s.mirror with zeroReached := s.mirror.zeroReached - 1 }) :
    exec c s = .next (triggerMirror (setMirror s m)) ∧ m.writing = s.mirror.writing ∧ m.count = s.mirror.count := by
  rcases h with ⟨rfl, hp, rfl⟩ | ⟨rfl, ht, rfl⟩ | ⟨rfl, hz, rfl⟩
  · exact ⟨congrArg _ (if_pos hp), rfl, rfl⟩
  · refine ⟨?_, rfl, rfl⟩
    obtain ⟨n, hn⟩ := Option.isSome_iff_exists.mp ht
    show execMirrorIntervalExpiry s = _
    rw [execMirrorIntervalExpiry, hn]
  · refine ⟨?_, rfl, rfl⟩
    obtain ⟨n, hn⟩ := Nat.exists_eq_succ_of_ne_zero hz
    show execMirrorCountdownZero s = _
    rw [execMirrorCountdownZero, hn]
    rfl

/-- Settles O20: a trigger begins a write, or waits for the one in progress. -/
theorem mirrorTriggersBeginOrWait : Obligations.MirrorTriggersBeginOrWait := by
  intro c s m hram hc
  obtain ⟨hexec, hwriting, hcount⟩ := exec_trigger hc
  obtain ⟨hbegins, hwaits⟩ := triggerMirror_triggers (setMirror s m)
  refine ⟨_, hexec, ?_, fun hw => ?_, fun hw => ?_⟩
  · unfold triggerMirror
    split <;> rfl
  · rw [hwaits (hwriting.trans hw)]
    exact ⟨rfl, rfl⟩
  · obtain ⟨hmirror, hfirst, hmode, hout⟩ := beginMirrorWrite_writes (s := setMirror s m) hram
    rw [hbegins (hwriting.trans hw), ← hcount]
    exact ⟨_, rfl, hmirror, hfirst, hmode, hout⟩

/-! ## Writing blocks of words -/

/-- Write blocks of words, each at its address, one after the other. -/
def writeBlocks (m : Memory) : List (Nat × List Word) → Memory
  | [] => m
  | b :: bs => writeBlocks (writeWords m b.1 b.2) bs

/-- The address and the length of a block. -/
def blockSpan (b : Nat × List Word) : Nat × Nat := (b.1, b.2.length)

theorem writeBlocks_wf {m : Memory} (h : m.wf) (l : List (Nat × List Word)) : (writeBlocks m l).wf := by
  induction l generalizing m with
  | nil => exact h
  | cons b l ih => exact ih (writeWords_wf h _ _)

theorem readByte_writeBlocks_of_out {m : Memory} (hm : m.wf) {l : List (Nat × List Word)} {a : Nat}
    (h : ∀ b ∈ l, a < b.1 ∨ b.1 + 4 * b.2.length ≤ a) : readByte (writeBlocks m l) a = readByte m a := by
  induction l generalizing m with
  | nil => rfl
  | cons b l ih =>
    rw [writeBlocks, ih (writeWords_wf hm _ _) fun b' hb' => h b' (List.mem_cons_of_mem _ hb')]
    exact readByte_writeWords_of_out hm (h b List.mem_cons_self)

theorem readWord_writeBlocks_of_below {m : Memory} (hm : m.wf) {l : List (Nat × List Word)} {a : Nat}
    (h : ∀ b ∈ l, a + 4 ≤ b.1) : readWord (writeBlocks m l) a = readWord m a := by
  have byte (k : Nat) (hk : k < 4) : readByte (writeBlocks m l) (a + k) = readByte m (a + k) :=
    readByte_writeBlocks_of_out hm fun b hb => .inl (by have := h b hb; omega)
  simpa only [readWord, Nat.add_zero] using
    congr (congrArg _ (byte 3 (by omega))) (congr (congrArg _ (byte 2 (by omega)))
      (congr (congrArg _ (byte 1 (by omega))) (byte 0 (by omega))))

/-- Blocks in ascending order read as they were written. -/
theorem readWord_writeBlocks_in {m : Memory} (hm : m.wf) {l : List (Nat × List Word)}
    (hl : (l.map blockSpan).Pairwise fun a b => a.1 + 4 * a.2 ≤ b.1) {b : Nat × List Word} (hb : b ∈ l) {j : Nat}
    (hj : j < b.2.length) (hin : b.1 + 4 * b.2.length ≤ Config.ramBytes) :
    readWord (writeBlocks m l) (b.1 + 4 * j) = b.2[j] := by
  induction l generalizing m with
  | nil => simp at hb
  | cons b' l ih =>
    obtain ⟨hafter, hl⟩ := List.pairwise_cons.mp hl
    rcases List.mem_cons.mp hb with rfl | hb
    · have hbelow : ∀ b'' ∈ l, b.1 + 4 * j + 4 ≤ b''.1 := fun b'' hb'' => by
        have : b.1 + 4 * b.2.length ≤ b''.1 := hafter _ (List.mem_map_of_mem hb'')
        omega
      rw [writeBlocks, readWord_writeBlocks_of_below (writeWords_wf hm _ _) hbelow]
      exact readWord_writeWords_in hm hj hin
    · exact ih (writeWords_wf hm _ _) hl hb

/-! ## The groups that a write shows (R179) -/

/-- The groups that the end of a write shows: each as it stood at the beginning where its bit is set, and as it stands now
otherwise. -/
def shownGroups (early : BitVec 35) : List (Nat × List Word) → List (Nat × List Word) → Nat → List (Nat × List Word)
  | old :: olds, new :: news, g => (if early.getLsbD g then old else new) :: shownGroups early olds news (g + 1)
  | _, _, _ => []

theorem writeGroups_eq (m : Memory) (early : BitVec 35) {olds news : List (Nat × List Word)} (g : Nat)
    (h : olds.length = news.length) : writeGroups m early olds news g = writeBlocks m (shownGroups early olds news g) := by
  induction olds generalizing m news g with
  | nil =>
    obtain rfl := List.length_eq_zero_iff.mp h.symm
    rfl
  | cons old olds ih =>
    cases news with
    | nil => simp at h
    | cons new news => exact ih _ _ (by simpa using h)

theorem getElem?_shownGroups (early : BitVec 35) {olds news : List (Nat × List Word)} (g k : Nat)
    (h : olds.length = news.length) :
    (shownGroups early olds news g)[k]? = if early.getLsbD (g + k) then olds[k]? else news[k]? := by
  induction olds generalizing news g k with
  | nil =>
    obtain rfl := List.length_eq_zero_iff.mp h.symm
    simp [shownGroups]
  | cons old olds ih =>
    cases news with
    | nil => simp at h
    | cons new news =>
      cases k with
      | zero => simp only [shownGroups, List.getElem?_cons_zero, Nat.add_zero]; split <;> rfl
      | succ k =>
        simp only [shownGroups, List.getElem?_cons_succ]
        rw [ih (g + 1) k (by simpa using h), Nat.add_assoc, Nat.add_comm 1 k]

theorem shownGroups_spans (early : BitVec 35) {olds news : List (Nat × List Word)} (g : Nat)
    (h : olds.map blockSpan = news.map blockSpan) :
    (shownGroups early olds news g).map blockSpan = news.map blockSpan := by
  induction olds generalizing news g with
  | nil =>
    obtain rfl := List.map_eq_nil_iff.mp h.symm
    rfl
  | cons old olds ih =>
    cases news with
    | nil => simp at h
    | cons new news =>
      obtain ⟨hhead, htail⟩ := List.cons.inj h
      rw [shownGroups, List.map_cons, List.map_cons, ih (g + 1) htail]
      split
      · rw [hhead]
      · rfl

/-- Every state has its groups at the same places. -/
theorem mirrorGroups_spans (s t : State) : (mirrorGroups s).map blockSpan = (mirrorGroups t).map blockSpan := rfl

theorem mirrorSpans_ascend (s : State) : ((mirrorGroups s).map blockSpan).Pairwise fun a b => a.1 + 4 * a.2 ≤ b.1 := by
  rw [mirrorGroups_spans s State.reset]
  decide

/-- Every group lies between the mode word of the mirror and its end. -/
theorem mirrorSpans_bounds (s : State) : ∀ r ∈ (mirrorGroups s).map blockSpan, 0x400C ≤ r.1 ∧ r.1 + 4 * r.2 ≤ 0x42E0 := by
  rw [mirrorGroups_spans s State.reset]
  decide

/-- The groups that the end of the write in progress shows. -/
def shownAtEnd (s : State) (early : BitVec 35) : List (Nat × List Word) :=
  shownGroups early s.mirror.snapshot (mirrorGroups s) 0

section

variable {s s₀ : State} (h : s.mirror.snapshot = mirrorGroups s₀) (early : BitVec 35)
include h

theorem snapshot_length : s.mirror.snapshot.length = (mirrorGroups s).length := by
  rw [h]
  rfl

theorem shownAtEnd_spans : (shownAtEnd s early).map blockSpan = (mirrorGroups s).map blockSpan :=
  shownGroups_spans early 0 (by rw [h]; rfl)

theorem shownAtEnd_bounds {b : Nat × List Word} (hb : b ∈ shownAtEnd s early) : 0x400C ≤ b.1 ∧ b.1 + 4 * b.2.length ≤ 0x42E0 :=
  mirrorSpans_bounds s (blockSpan b) (by rw [← shownAtEnd_spans h early]; exact List.mem_map_of_mem hb)

theorem endMirrorWrite_ram :
    (endMirrorWrite s early).ram = writeWord (writeBlocks s.ram (shownAtEnd s early)) 0x4004 s.mirror.count := by
  show writeWord (writeGroups s.ram early s.mirror.snapshot (mirrorGroups s) 0) 0x4004 s.mirror.count = _
  rw [writeGroups_eq s.ram early 0 (snapshot_length h)]
  rfl

theorem endMirrorWrite_outside (hram : s.ram.wf) : ramOutside s (endMirrorWrite s early) [(0x4004, 4), (0x400C, 0x2D4)] := by
  intro a ha
  have hcount : a < 0x4004 ∨ 0x4004 + 4 ≤ a := ha (0x4004, 4) (by simp)
  have hgroups : a < 0x400C ∨ 0x400C + 0x2D4 ≤ a := ha (0x400C, 0x2D4) (by simp)
  rw [endMirrorWrite_ram h, readByte_writeWord_of_out (writeBlocks_wf hram _) hcount]
  refine readByte_writeBlocks_of_out hram fun b hb => ?_
  have := shownAtEnd_bounds h early hb
  omega

theorem readRam_endMirrorWrite_count (hram : s.ram.wf) : readRam (endMirrorWrite s early) 0x4004 = s.mirror.count := by
  rw [readRam, endMirrorWrite_ram h]
  exact readWord_writeWord (writeBlocks_wf hram _) (by decide) _

/-- Word `j` of group `k` is that of the moment which the group shows. -/
theorem readRam_endMirrorWrite_group (hram : s.ram.wf) {k : Nat} {x : State} (hx : x = if early.getLsbD k then s₀ else s)
    {b : Nat × List Word} (hb : (mirrorGroups x)[k]? = some b) {a : Nat} (j : Nat) (ha : a = b.1 + 4 * j)
    (hj : j < b.2.length) : readRam (endMirrorWrite s early) a = b.2[j] := by
  have hshown : b ∈ shownAtEnd s early := by
    refine List.mem_of_getElem? (i := k) ?_
    rw [shownAtEnd, getElem?_shownGroups early 0 k (snapshot_length h), Nat.zero_add, h, ← hb, hx]
    split <;> rfl
  obtain ⟨hlow, hhigh⟩ := shownAtEnd_bounds h early hshown
  rw [readRam, endMirrorWrite_ram h, ha, readWord_writeWord_of_out (writeBlocks_wf hram _) (by omega)]
  exact readWord_writeBlocks_in hram (by rw [shownAtEnd_spans h]; exact mirrorSpans_ascend s) hshown hj
    (by simp only [Config.ramBytes]; omega)

end

theorem getElem?_allSites (i : Site) : Config.allSites[i.val]? = some i := by
  revert i
  decide

theorem mirrorGroups_site (x : State) (i : Site) : (mirrorGroups x)[3 + i.val]? = some (siteGroup x i) := by
  have hlen : 3 + i.val < ([touchdownGroup x, lotGroup x, railGroup x] ++ Config.allSites.map (siteGroup x)).length := by
    have := i.isLt
    simp only [List.length_append, List.length_map, List.length_cons, List.length_nil, show Config.allSites.length = 16 from rfl]
    omega
  rw [mirrorGroups, List.getElem?_append_left hlen, List.getElem?_append_right (by simp)]
  simp [getElem?_allSites]

theorem mirrorGroups_port (x : State) (i : Site) : (mirrorGroups x)[19 + i.val]? = some (portGroup x i) := by
  have hlen : ([touchdownGroup x, lotGroup x, railGroup x] ++ Config.allSites.map (siteGroup x)).length = 19 := rfl
  rw [mirrorGroups, List.getElem?_append_right (by omega), hlen, Nat.add_sub_cancel_left, List.getElem?_map,
    getElem?_allSites]
  rfl

theorem boundWord_eq (c : SiteChannel) : boundWord c = ((c.bound.map fun b => BitVec.ofNat 32 b.index).getD 0xFFFFFFFF) := by
  unfold boundWord
  cases c.bound <;> rfl

theorem cursorWord_eq (c : SiteChannel) : cursorWord c = ((c.remaining.head?.map (BitVec.ofNat 32)).getD 0xFFFFFFFF) := by
  unfold cursorWord
  cases c.remaining <;> rfl

theorem waitingSize_eq (r : RailController) :
    waitingSize r = (List.finRange 16).countP fun i => (r.waiting[i]).isSome := by
  have hsites : Config.allSites = List.finRange 16 := by decide
  rw [waitingSize, hsites]

/-- The end of a write, with the one that it begins at once when another is pending. -/
theorem exec_mirrorWriteEnd {s : State} (hw : s.mirror.writing = true) (early : BitVec 35) :
    (s.mirror.writePending = false → exec (.mirrorWriteEnd early) s = .next (endMirrorWrite s early)) ∧
      (s.mirror.writePending = true → s.phase = .running →
        exec (.mirrorWriteEnd early) s = exec .mirrorNow (setMirror (endMirrorWrite s early)
          { (endMirrorWrite s early).mirror with writePending := false })) := by
  have hexec : exec (.mirrorWriteEnd early) s = .next (if s.mirror.writePending then
      beginMirrorWrite (setMirror (endMirrorWrite s early) { (endMirrorWrite s early).mirror with writePending := false })
      else endMirrorWrite s early) := congrArg _ (if_pos hw)
  refine ⟨fun hp => by rw [hexec, hp]; rfl, fun hp hrun => ?_⟩
  have hnow : exec .mirrorNow (setMirror (endMirrorWrite s early)
      { (endMirrorWrite s early).mirror with writePending := false }) =
      .next (triggerMirror (setMirror (endMirrorWrite s early)
        { (endMirrorWrite s early).mirror with writePending := false })) := congrArg _ (if_pos hrun)
  rw [hexec, hnow, hp, (triggerMirror_triggers _).1 rfl]
  rfl

/-- Settles O21: every group reads as at the moment which its bit names. -/
theorem mirrorWriteShowsEveryGroup : Obligations.MirrorWriteShowsEveryGroup := by
  refine ⟨⟨rfl, rfl, rfl⟩, fun early s s₀ hram hw hsnap => ?_⟩
  obtain ⟨hends, hagain⟩ := exec_mirrorWriteEnd hw early
  have group {k : Nat} {x : State} (hx : x = if early.getLsbD k then s₀ else s) {b : Nat × List Word}
      (hb : (mirrorGroups x)[k]? = some b) {a : Nat} (j : Nat) (ha : a = b.1 + 4 * j) (hj : j < b.2.length) :
      readRam (endMirrorWrite s early) a = b.2[j] := readRam_endMirrorWrite_group hsnap early hram hx hb j ha hj
  refine ⟨endMirrorWrite s early, rfl, endMirrorWrite_outside hsnap early hram,
    readRam_endMirrorWrite_count hsnap early hram, fun x hx => ?_, fun x hx => ?_, fun x hx => ?_, fun i x hx => ?_,
    fun i x hx => ?_, hends, hagain⟩
  · have word (k : Nat) (hk : k < 6) := group hx (b := touchdownGroup x) rfl (a := 0x400C + 4 * k) k rfl hk
    exact ⟨word 0 (by omega), word 1 (by omega), word 2 (by omega), word 3 (by omega), word 4 (by omega), word 5 (by omega)⟩
  · have word (k : Nat) (hk : k < 8) := group hx (b := lotGroup x) rfl (a := 0x4024 + 4 * k) k rfl hk
    exact ⟨word 0 (by omega), word 1 (by omega), word 2 (by omega), word 3 (by omega), word 4 (by omega), word 5 (by omega),
      word 6 (by omega), word 7 (by omega)⟩
  · have word (k : Nat) (hk : k < 7) := group hx (b := railGroup x) rfl (a := 0x4044 + 4 * k) k rfl hk
    rw [← waitingSize_eq]
    exact ⟨word 0 (by omega), word 1 (by omega), word 2 (by omega), word 3 (by omega), word 4 (by omega), word 5 (by omega),
      word 6 (by omega)⟩
  · have word (k : Nat) (hk : k < 4) := group hx (mirrorGroups_site x i) (a := 0x4060 + 4 * k + 16 * i.val) k
      (by show _ = 0x4060 + 16 * i.val + 4 * k; omega) hk
    rw [← boundWord_eq, ← cursorWord_eq]
    exact ⟨word 0 (by omega), word 1 (by omega), word 2 (by omega), word 3 (by omega)⟩
  · have word (k : Nat) (hk : k < 6) := group hx (mirrorGroups_port x i) (a := 0x4160 + 4 * k + 24 * i.val) k
      (by show _ = 0x4160 + 24 * i.val + 4 * k; omega) hk
    exact ⟨word 0 (by omega), word 1 (by omega), word 2 (by omega), word 3 (by omega), word 4 (by omega), word 5 (by omega)⟩

/-! ## The examination of the slot (R165) -/

/-- A posted request of a known code is carried out. -/
theorem notifyUnit_of_posted {s : State} {code : Word} (h : posted s code) (hcode : knownCode code = true) :
    notifyUnit s = reexamine (carryOut code (accept s)) := by
  obtain ⟨hrunning, hidle, hnew, hread⟩ := h
  have hread' : readRam s atRequestCode = code := hread
  have hold : postedSequence s ≠ s.requests.lastAnswered := by bv_omega
  have hslot : slotIsNew s = true := decide_eq_true hnew
  rw [notifyUnit_of_idle hrunning hidle]
  simp [examine, examineOnce, hold, hslot, hread', hcode]

/-- The command of a row is the request of its code. -/
theorem exec_request_of_posted {s : State} {code : Word} {c : Instr}
    (hc : (code, c) ∈ [((1 : Word), Instr.openLot), (2, .closeLot), (3, .spoilIndex), (4, .listResume), (5, .validateProfile),
      (6, .loadSecret), (7, .sealSecret), (8, .abortTouchdown), (9, .clearCounters)]) (h : posted s code) :
    knownCode code = true ∧ exec c s = .next (reexamine (carryOut code (accept s))) := by
  have htakes := takesRequest_of_posted h
  simp only [List.mem_cons, Prod.mk.injEq, List.not_mem_nil, or_false] at hc
  rcases hc with ⟨rfl, rfl⟩ | ⟨rfl, rfl⟩ | ⟨rfl, rfl⟩ | ⟨rfl, rfl⟩ | ⟨rfl, rfl⟩ | ⟨rfl, rfl⟩ | ⟨rfl, rfl⟩ | ⟨rfl, rfl⟩ | ⟨rfl, rfl⟩ <;>
    exact ⟨rfl, congrArg _ (if_pos htakes)⟩

/-- Settles O22: the three cases of an examination, and the row of each code. -/
theorem notifyTakesThePostedRequest : Obligations.NotifyTakesThePostedRequest := by
  refine ⟨fun s => ?_, rfl, fun value s => ⟨fun h => ?_, fun hrunning hidle hold => ?_, fun code c hc h => ?_⟩⟩
  · exact BitVec.eq_of_getLsbD_eq fun k hk => by simp [postedSequence, hk, atPosted]
  · have hbusy : mayExamine s = false := by
      rcases h with h | h <;> simp [mayExamine, h]
    show execNotify value s = _
    simp [execNotify, notifyUnit, hbusy, setRequests]
  · have hslot : slotIsNew s = false := by
      refine decide_eq_false fun hnew => ?_
      rw [hold] at hnew
      bv_omega
    show execNotify value s = _
    rw [execNotify, notifyUnit_of_idle hrunning hidle]
    simp [examine, examineOnce, hold, hslot]
  · obtain ⟨hknown, hexec⟩ := exec_request_of_posted hc h
    show execNotify value s = _
    rw [hexec, execNotify, notifyUnit_of_posted h hknown]

end Sys2Proof.Machine
end

section
/-!
The requests of the slot that load and seal the secret (R25 to R31), open and close a lot (R3, R4, R18, R20), and abort a
touchdown (R82), each as its command finds it posted.
-/

namespace Sys2Proof.Machine

/-! ## The answer to an accepted request -/

/-- The state in which a posted request is in progress, kept with the eight parameter words of the slot (R166). -/
theorem accept_of_posted {s : State} {code : Word} (h : posted s code) :
    accept s =
      { s with
        requests := { s.requests with
          busy := true
          inProgress := some {
            code := code, params := (List.range 8).map fun k => readRam s (0x48 + 4 * k), sequence := postedSequence s } } } := by
  have hcode : readRam s atRequestCode = code := h.2.2.2
  rw [accept, hcode]
  rfl

/-- The answer to the request just accepted, after the block that owns it has written these ranges of the exchange RAM. -/
theorem answer_of_accepted {s u : State} {ranges : List (Nat × Nat)} (hreq : u.requests = (accept s).requests) (hok : RamOk u)
    (hout : ramOutside s u ranges) (hclear : ∀ r ∈ ranges, r.1 + r.2 ≤ 0x68 ∨ 0x80 ≤ r.1) (code : AnswerCode) (detail : Word)
    (results : List Word) (hl : results.length ≤ 4) :
    answered s (answer u code detail results) (postedSequence s) code detail results ∧
      ramOutside s (answer u code detail results) (answerFields :: ranges) ∧
      (∀ a, a + 4 ≤ 0x68 ∨ 0x80 ≤ a → readRam (answer u code detail results) a = readRam u a) ∧
      answer u code detail results =
        { u with
          ram := (answer u code detail results).ram
          requests := (answer u code detail results).requests
          attention := u.attention ||| 2 } := by
  have hprogress : u.requests.inProgress =
      some { code := readRam s atRequestCode, params := slotParams s, sequence := postedSequence s } := by
    rw [hreq]
    exact accept_inProgress s
  obtain ⟨hword, hdetail, hresults, hunit⟩ := answer_answers hok hprogress code detail results hl
  have hanswer := answer_outside hok code detail results hl
  refine ⟨⟨hword, hdetail, fun k hk => ?_, ?_⟩, ?_, fun a ha => ?_, answer_changes hprogress code detail results⟩
  · have hsame : readRam u (0x6C + 4 * k) = readRam s (0x6C + 4 * k) := by
      refine readRam_of_ramOutside hout fun r hr => ?_
      have := hclear r hr
      omega
    rw [hresults k hk, hsame]
  · rw [hunit, hreq]
    rfl
  · refine ramOutside_trans (ramOutside_mono hout fun a ha r hr => ha r (List.mem_cons_of_mem _ hr)) ?_
    exact ramOutside_mono hanswer fun a ha r hr => ha r (by rw [List.mem_singleton.mp hr]; exact List.mem_cons_self)
  · refine readRam_of_ramOutside hanswer fun r hr => ?_
    rw [List.mem_singleton.mp hr]
    exact ha

/-- The answer to a request that its block has refused, or answered without touching the exchange RAM. -/
theorem answer_of_accepted_same {s u : State} (hreq : u.requests = (accept s).requests) (hram : s.ram.wf) (hu : u.ram = s.ram)
    (code : AnswerCode) (detail : Word) (results : List Word) (hl : results.length ≤ 4) :
    answered s (answer u code detail results) (postedSequence s) code detail results ∧
      ramOutside s (answer u code detail results) [answerFields] ∧
      answer u code detail results =
        { u with
          ram := (answer u code detail results).ram
          requests := (answer u code detail results).requests
          attention := u.attention ||| 2 } := by
  obtain ⟨h1, h2, -, h4⟩ := answer_of_accepted hreq (by rw [ramOk_iff, hu]; exact hram) (ramOutside_refl hu []) (by simp) code
    detail results hl
  exact ⟨h1, h2, h4⟩

/-- A posted request that its block answers is carried out, and nothing further is examined. -/
theorem exec_request_of_answered {s : State} {word : Word} {c : Instr}
    (hc : (word, c) ∈ [((1 : Word), Instr.openLot), (2, .closeLot), (3, .spoilIndex), (4, .listResume), (5, .validateProfile),
      (6, .loadSecret), (7, .sealSecret), (8, .abortTouchdown), (9, .clearCounters)]) (hlaw : requestLaw s) (hp : posted s word)
    {code : AnswerCode} {detail : Word} {results : List Word}
    (h : answered s (carryOut word (accept s)) (postedSequence s) code detail results) :
    exec c s = .next (carryOut word (accept s)) := by
  rw [(exec_request_of_posted hc hp).2, reexamine_of_answered h (pendingNotify_of_posted hlaw hp)]

/-- A posted request that stays in progress is accepted, and nothing further is examined (R172). -/
theorem exec_request_of_busy {s : State} {word : Word} {c : Instr}
    (hc : (word, c) ∈ [((1 : Word), Instr.openLot), (2, .closeLot), (3, .spoilIndex), (4, .listResume), (5, .validateProfile),
      (6, .loadSecret), (7, .sealSecret), (8, .abortTouchdown), (9, .clearCounters)]) (hp : posted s word)
    (h : (carryOut word (accept s)).requests.busy = true) : exec c s = .next (carryOut word (accept s)) := by
  rw [(exec_request_of_posted hc hp).2, reexamine_of_busy h]

/-! ## LOAD_SECRET (R25 to R27) -/

theorem zeroStaging_words (s : State) {a : Nat} (h1 : 0x400 ≤ a) (h2 : a + 4 ≤ 0x410) :
    readRam (zeroRam s atStaging 16) a = 0 := readRam_zeroRam_in h1 h2

/-- The state with the new secret, published and not yet answered. -/
def secretLoaded (s : State) (m : Secret) : State :=
  publishSecretState
    (setDerivation (zeroRam s atStaging 16) { s.derivation with secret := m, state := .loaded, checkValue := (deriveKey m 0 0).k0 })

theorem loadSecret_noStrap {s : State} (h : s.straps.secretLoad = false) :
    loadSecret s = answer (zeroRam s atStaging 16) .strap s.derivation.state.code [] := by
  simp [loadSecret, h]

theorem loadSecret_sealed {s : State} (h : s.straps.secretLoad = true) (hs : s.derivation.state = .sealed) :
    loadSecret s = answer (zeroRam s atStaging 16) .badState 2 [] := by
  simp [loadSecret, h, hs]

theorem loadSecret_zero {s : State} (h : s.straps.secretLoad = true) (hs : s.derivation.state ≠ .sealed)
    (hm : stagedSecret s = zeroSecret) :
    loadSecret s = answer (zeroRam s atStaging 16) .badParameter s.derivation.state.code [] := by
  simp [loadSecret, h, hs, hm]

theorem loadSecret_loads {s : State} (h : s.straps.secretLoad = true) (hs : s.derivation.state ≠ .sealed)
    (hm : stagedSecret s ≠ zeroSecret) :
    loadSecret s = answer (secretLoaded s (stagedSecret s)) .done (if s.derivation.state = .absent then 0 else 1)
      [(deriveKey (stagedSecret s) 0 0).k0] := by
  have hdetail : (if s.derivation.state = .loaded then (1 : Word) else 0) = if s.derivation.state = .absent then 0 else 1 := by
    cases hst : s.derivation.state
    · rfl
    · rfl
    · exact absurd hst hs
  rw [← hdetail]
  simp [loadSecret, h, hs, hm, secretLoaded, checkValueOf]

section

variable {s : State} (hram : s.ram.wf)
include hram

theorem secretLoaded_ok (m : Secret) : RamOk (secretLoaded (accept s) m) :=
  publishSecretState_ok ((setDerivation_ok _ _).mpr (zeroRam_ok (s := accept s) hram _ _))

/-- The new secret is published, and the staging words are zeroed. -/
theorem secretLoaded_ram (m : Secret) :
    ramOutside s (secretLoaded (accept s) m) [(0x400, 16), (0x10, 8)] ∧
      (∀ a, 0x400 ≤ a → a + 4 ≤ 0x410 → readRam (secretLoaded (accept s) m) a = 0) ∧
      readRam (secretLoaded (accept s) m) 0x10 = 1 ∧
      readRam (secretLoaded (accept s) m) 0x14 = (deriveKey m 0 0).k0 := by
  obtain ⟨u, hu⟩ : ∃ u, u = setDerivation (zeroRam (accept s) atStaging 16)
    { s.derivation with secret := m, state := .loaded, checkValue := (deriveKey m 0 0).k0 } := ⟨_, rfl⟩
  have hform : secretLoaded (accept s) m = publishSecretState u := by rw [hu]; rfl
  have hok : RamOk u := by rw [hu]; exact zeroRam_ok (s := accept s) hram _ _
  have hzeroed : ramOutside s u [(0x400, 16)] := ramOutside_congr (ramOutside_zeroRam (accept s) 0x400 16) rfl (by rw [hu]; rfl)
  have hpublished := publishSecretState_outside hok
  obtain ⟨hstate, hcheck⟩ := readRam_publishSecretState hok
  rw [hform]
  refine ⟨ramOutside_trans (ramOutside_mono hzeroed fun a ha r hr => ha r ?_)
    (ramOutside_mono hpublished fun a ha r hr => ha r ?_), fun a h1 h2 => ?_, hstate.trans ?_, hcheck.trans ?_⟩
  · rw [List.mem_singleton.mp hr]
    exact List.mem_cons_self
  · rw [List.mem_singleton.mp hr]
    simp
  · rw [readRam_of_ramOutside hpublished (by simp; omega), hu]
    exact zeroStaging_words (accept s) h1 h2
  · rw [hu]
    rfl
  · rw [hu]
    rfl

/-- What LOAD_SECRET leaves whatever its answer: the frame, and staging words that read zero (R30). -/
def stagingCleared (s t : State) : Prop :=
  t = { s with ram := t.ram, requests := t.requests, attention := s.attention ||| 2, derivation := t.derivation } ∧
    readRam t 0x400 = 0 ∧ readRam t 0x404 = 0 ∧ readRam t 0x408 = 0 ∧ readRam t 0x40C = 0

/-- A LOAD_SECRET that is refused leaves the derivation unit as it is. -/
theorem exec_loadSecret_of_refused (hlaw : requestLaw s) (hp : posted s 6) {code : AnswerCode} {detail : Word}
    (h : loadSecret (accept s) = answer (zeroRam (accept s) atStaging 16) code detail []) :
    ∃ t, exec .loadSecret s = .next t ∧ stagingCleared s t ∧ t.derivation = s.derivation ∧
      answered s t (postedSequence s) code detail [] ∧ ramOutside s t [answerFields, (0x400, 16)] := by
  have hzeroed : ramOutside s (zeroRam (accept s) atStaging 16) [(0x400, 16)] :=
    ramOutside_congr (ramOutside_zeroRam (accept s) 0x400 16) rfl rfl
  obtain ⟨hans, hout, hread, hchanges⟩ := answer_of_accepted (u := zeroRam (accept s) atStaging 16)
    (ranges := [(0x400, 16)]) rfl (zeroRam_ok (s := accept s) hram _ _) hzeroed (by simp) code detail [] (by simp)
  obtain ⟨t, ht⟩ : ∃ t, t = answer (zeroRam (accept s) atStaging 16) code detail [] := ⟨_, rfl⟩
  rw [← ht] at h hans hout hread hchanges
  have hzero (a : Nat) (h1 : 0x400 ≤ a) (h2 : a + 4 ≤ 0x410) : readRam t a = 0 :=
    (hread a (.inr (by omega))).trans (zeroStaging_words (accept s) h1 h2)
  have hderivation : t.derivation = s.derivation := by rw [hchanges]; rfl
  have hexec : exec .loadSecret s = .next t := by
    rw [← h] at hans ⊢
    exact exec_request_of_answered (word := 6) (by simp) hlaw hp hans
  refine ⟨t, hexec, ⟨?_, hzero _ (by omega) (by omega), hzero _ (by omega) (by omega), hzero _ (by omega) (by omega),
    hzero _ (by omega) (by omega)⟩, hderivation, hans, hout⟩
  rw [hderivation]
  exact hchanges

/-- A LOAD_SECRET that passes its checks loads and publishes the secret. -/
theorem exec_loadSecret_of_loads (hlaw : requestLaw s) (hp : posted s 6) (hstrap : s.straps.secretLoad = true)
    (hseal : s.derivation.state ≠ .sealed) (hsecret : stagedSecret s ≠ zeroSecret) :
    ∃ t, exec .loadSecret s = .next t ∧ stagingCleared s t ∧
      t.derivation =
        { s.derivation with
          secret := stagedSecret s, state := .loaded, checkValue := (deriveKey (stagedSecret s) 0 0).k0 } ∧
      readRam t 0x10 = 1 ∧ readRam t 0x14 = (deriveKey (stagedSecret s) 0 0).k0 ∧
      answered s t (postedSequence s) .done (if s.derivation.state = .absent then 0 else 1)
        [(deriveKey (stagedSecret s) 0 0).k0] ∧
      ramOutside s t [answerFields, (0x400, 16), (0x10, 8)] := by
  have h := loadSecret_loads (s := accept s) hstrap hseal hsecret
  obtain ⟨hloaded, hcleared, hstate, hcheck⟩ := secretLoaded_ram hram (stagedSecret s)
  obtain ⟨hans, hout, hread, hchanges⟩ := answer_of_accepted (s := s) (by simp [secretLoaded])
    (secretLoaded_ok hram (stagedSecret s)) hloaded (by simp) .done (if s.derivation.state = .absent then 0 else 1)
    [(deriveKey (stagedSecret s) 0 0).k0] (by simp)
  obtain ⟨t, ht⟩ : ∃ t, t = loadSecret (accept s) := ⟨_, rfl⟩
  have ht' : t = answer (secretLoaded (accept s) (stagedSecret s)) .done (if s.derivation.state = .absent then 0 else 1)
      [(deriveKey (stagedSecret s) 0 0).k0] := ht.trans h
  rw [← ht'] at hans hout hread hchanges
  have hzero (a : Nat) (h1 : 0x400 ≤ a) (h2 : a + 4 ≤ 0x410) : readRam t a = 0 :=
    (hread a (.inr (by omega))).trans (hcleared a h1 h2)
  have hderivation : t.derivation = (secretLoaded (accept s) (stagedSecret s)).derivation := by rw [hchanges]
  refine ⟨t, ?_, ⟨?_, hzero _ (by omega) (by omega), hzero _ (by omega) (by omega), hzero _ (by omega) (by omega),
    hzero _ (by omega) (by omega)⟩, hderivation.trans ?_, (hread _ (.inl (by omega))).trans hstate,
    (hread _ (.inl (by omega))).trans hcheck, hans, hout⟩
  · rw [ht] at hans ⊢
    exact exec_request_of_answered (word := 6) (by simp) hlaw hp hans
  · rw [hderivation, hchanges]
    apply State.eq_of_fields <;> simp [secretLoaded]
  · simp [secretLoaded]

end

/-- Settles O26: the four cases, each with its answer. -/
theorem loadSecretChecksAndLoads : Obligations.LoadSecretChecksAndLoads := by
  intro s m hram hlaw hp hm
  replace hm : m = stagedSecret s := hm
  subst hm
  by_cases hstrap : s.straps.secretLoad = true
  · by_cases hseal : s.derivation.state = .sealed
    · obtain ⟨t, hexec, ⟨hframe, h0, h1, h2, h3⟩, hend⟩ :=
        exec_loadSecret_of_refused hram hlaw hp (loadSecret_sealed (s := accept s) hstrap hseal)
      exact ⟨t, hexec, hframe, h0, h1, h2, h3, fun h => by simp [hstrap] at h, fun _ _ => hend, fun _ h => absurd hseal h,
        fun _ h => absurd hseal h⟩
    · by_cases hsecret : stagedSecret s = zeroSecret
      · obtain ⟨t, hexec, ⟨hframe, h0, h1, h2, h3⟩, hend⟩ :=
          exec_loadSecret_of_refused hram hlaw hp (loadSecret_zero (s := accept s) hstrap hseal hsecret)
        exact ⟨t, hexec, hframe, h0, h1, h2, h3, fun h => by simp [hstrap] at h, fun _ h => absurd h hseal,
          fun _ _ _ => hend, fun _ _ h => absurd hsecret h⟩
      · obtain ⟨t, hexec, ⟨hframe, h0, h1, h2, h3⟩, hend⟩ := exec_loadSecret_of_loads hram hlaw hp hstrap hseal hsecret
        exact ⟨t, hexec, hframe, h0, h1, h2, h3, fun h => by simp [hstrap] at h, fun _ h => absurd h hseal,
          fun _ _ h => absurd h hsecret, fun _ _ _ => hend⟩
  · have hnone : s.straps.secretLoad = false := by simpa using hstrap
    obtain ⟨t, hexec, ⟨hframe, h0, h1, h2, h3⟩, hend⟩ :=
      exec_loadSecret_of_refused hram hlaw hp (loadSecret_noStrap (s := accept s) hnone)
    exact ⟨t, hexec, hframe, h0, h1, h2, h3, fun _ => hend, fun h => absurd h hstrap, fun h => absurd h hstrap,
      fun h => absurd h hstrap⟩

/-! ## SEAL_SECRET (R28) -/

/-- Settles O27: the secret is sealed and published, or the request is refused. -/
theorem sealSecretSealsTheLoadedSecret : Obligations.SealSecretSealsTheLoadedSecret := by
  intro s hram hlaw hp
  by_cases hloaded : s.derivation.state = .loaded
  · obtain ⟨u, hu⟩ : ∃ u, u = setDerivation (accept s) { s.derivation with state := .sealed } := ⟨_, rfl⟩
    have hok : RamOk u := by rw [hu]; exact hram
    have hseal : sealSecret (accept s) = answer (publishSecretState u) .done 0 [s.derivation.checkValue] := by
      rw [hu]
      exact if_pos hloaded
    obtain ⟨hstate, hcheck⟩ := readRam_publishSecretState hok
    have hpublished : ramOutside s (publishSecretState u) [(0x10, 8)] :=
      ramOutside_congr (publishSecretState_outside hok) (by rw [hu]; rfl) rfl
    obtain ⟨hans, hout, hread, hchanges⟩ := answer_of_accepted (s := s) (by rw [publishSecretState_requests, hu]; rfl)
      (publishSecretState_ok hok) hpublished (by simp) .done 0 [s.derivation.checkValue] (by simp)
    have hexec := exec_request_of_answered (word := 7) (c := .sealSecret) (s := s) (by simp) hlaw hp (by
      show answered s (sealSecret (accept s)) _ _ _ _
      rw [hseal]
      exact hans)
    refine ⟨answer (publishSecretState u) .done 0 [s.derivation.checkValue], ?_, ?_, fun _ => ⟨?_, ?_, ?_, hans, hout⟩,
      fun h => absurd hloaded h⟩
    · rw [hexec, ← hseal]
      rfl
    · rw [hchanges]
      apply State.eq_of_fields <;> simp [hu]
    · rw [hchanges]
      simp [hu]
    · rw [hread _ (.inl (by omega)), hstate, hu]
      rfl
    · rw [hread _ (.inl (by omega)), hcheck, hu]
      rfl
  · have hcode : s.derivation.state.code = if s.derivation.state = .absent then 0 else 2 := by
      cases hst : s.derivation.state
      · rfl
      · exact absurd hst hloaded
      · rfl
    have hseal : sealSecret (accept s) = answer (accept s) .badState (if s.derivation.state = .absent then 0 else 2) [] := by
      rw [← hcode]
      exact if_neg hloaded
    obtain ⟨hans, hout, hchanges⟩ := answer_of_accepted_same (s := s) rfl hram rfl .badState
      (if s.derivation.state = .absent then 0 else 2) [] (by simp)
    rw [← hseal] at hans hout hchanges
    have hderivation : (sealSecret (accept s)).derivation = s.derivation := by rw [hchanges]; rfl
    refine ⟨sealSecret (accept s), exec_request_of_answered (word := 7) (by simp) hlaw hp hans, ?_, fun h => absurd h hloaded,
      fun _ => ⟨hderivation, hans, hout⟩⟩
    rw [hderivation]
    exact hchanges

/-! ## OPEN_LOT (R3, R4) -/

/-- The answer of the first check that fails. -/
theorem openLotRefusal_eq_find {s : State} {fault : Nat} {mask : Nat}
    {checks : List (Bool × AnswerCode × Word × List Word)}
    (hfault : fault = faultCode (usedProfile (readProfile s (readRam s 0x10C).toNat)) (usedCapacity (readRam s 0x88)))
    (hmask : mask = clampMask (readProfile s (readRam s 0x10C).toNat) (readRam s 0x88))
    (hchecks : checks =
      [(decide (s.lot.state ≠ .noLot), .badState, 1, []),
       (decide (s.derivation.state ≠ .sealed), .badState, 2, []),
       (decide (readRam s 0x100 = 0), .badParameter, 1, []),
       (decide ((readRam s 0x108).toNat < (readRam s 0x104).toNat), .badParameter, 2, []),
       (decide (0xFFFFFF < (readRam s 0x108).toNat), .badParameter, 3, []),
       (decide (7 < (readRam s 0x10C).toNat), .badParameter, 4, []),
       (decide (fault ≠ 0), .badParameter, 5, [BitVec.ofNat 32 fault, BitVec.ofNat 32 mask])]) :
    openLotRefusal s = (checks.find? (·.1)).map (·.2) := by
  have step {α : Type} (p : Prop) [Decidable p] (x : α) (rest : List (Bool × α)) :
      (((decide p, x) :: rest).find? (·.1)).map (·.2) = if p then some x else (rest.find? (·.1)).map (·.2) := by
    by_cases h : p <;> simp [h]
  rw [hchecks, step, step, step, step, step, step, step, hfault, hmask]
  rfl

/-- Settles O41: a check that fails, or the lot that is opened. -/
theorem openLotChecksAndOpens : Obligations.OpenLotChecksAndOpens := by
  intro s number first last profile p fault mask slots checks hram hlaw hp hnumber hfirst hlast hprofile hstored hfault hmask
    hslots hchecks
  subst hnumber hfirst hlast hprofile hstored hslots
  have hrefusal := openLotRefusal_eq_find hfault hmask hchecks
  have hexec {t : State} {code : AnswerCode} {detail : Word} {results : List Word} (ht : openLot (accept s) = t)
      (h : answered s t (postedSequence s) code detail results) : exec .openLot s = .next t := by
    subst ht
    exact exec_request_of_answered (word := 1) (by simp) hlaw hp h
  cases hfind : checks.find? (·.1) with
  | some check =>
    obtain ⟨failed, code, detail, results⟩ := check
    rw [hfind] at hrefusal
    have hlen : results.length ≤ 4 := by
      have hmem := List.mem_of_find?_eq_some hfind
      rw [hchecks] at hmem
      simp only [List.mem_cons, Prod.mk.injEq, List.not_mem_nil, or_false] at hmem
      rcases hmem with h | h | h | h | h | h | h <;> simp [h.2.2.2]
    have hopen : openLot (accept s) = answer (accept s) code detail results := by
      have : openLotRefusal (accept s) = some (code, detail, results) := hrefusal
      rw [openLot, this]
    obtain ⟨hans, hout, hchanges⟩ := answer_of_accepted_same (s := s) rfl hram rfl code detail results hlen
    refine ⟨_, hexec hopen hans, ?_, hout, answer_rest (s := accept s) hram (accept_inProgress s) _ _ _ hlen,
      fun code' detail' results' h => ?_, fun h => by simp at h⟩
    · rw [hchanges]
      rfl
    · obtain ⟨-, rfl, rfl, rfl⟩ : failed = true ∧ code = code' ∧ detail = detail' ∧ results = results' := by simpa using h
      exact ⟨by simp, by simp, hans⟩
  | none =>
    rw [hfind] at hrefusal
    obtain ⟨u, hu⟩ : ∃ u, u = setRail (setLot (accept s) (openedLot s)) { s.rail with
      slotTotal := slotTotalOf (usedCapacity (readRam s 0x88)) (usedProfile (readProfile s (readRam s 0x10C).toNat)).draw } :=
      ⟨_, rfl⟩
    obtain ⟨results, hresults⟩ : ∃ results : List Word, results =
      [natWord (slotTotalOf (usedCapacity (readRam s 0x88)) (usedProfile (readProfile s (readRam s 0x10C).toNat)).draw),
        natWord ((readRam s 0x108).toNat - (readRam s 0x104).toNat + 1)] := ⟨_, rfl⟩
    have hopen : openLot (accept s) = answer u .done (natWord mask) results := by
      have : openLotRefusal (accept s) = none := hrefusal
      rw [openLot, this, hu, hresults, hmask]
      rfl
    have hureq : u.requests = (accept s).requests := by rw [hu]; rfl
    have huram : u.ram = s.ram := by rw [hu]; rfl
    have hlen : results.length ≤ 4 := by rw [hresults]; simp
    have huok : RamOk u := by rw [ramOk_iff, huram]; exact hram
    obtain ⟨hans, hout, hchanges⟩ := answer_of_accepted_same hureq hram huram .done (natWord mask) results hlen
    refine ⟨_, hexec hopen hans, ?_, hout, answer_rest huok (by rw [hureq]; exact accept_inProgress s) _ _ _ hlen,
      fun _ _ _ h => by simp at h, fun _ => ⟨?_, ?_, ?_⟩⟩
    · rw [hchanges, hu]
      rfl
    · rw [hchanges, hu]
      rfl
    · rw [hchanges, hu]
      rfl
    · rw [hresults] at hans ⊢
      exact hans

/-! ## CLOSE_LOT (R18, R20) -/

/-- A lot that the request just accepted closes. -/
theorem lotClosed_of_accept {s u : State} {q : Half} (h : lotClosed (accept s) u q) : lotClosed s u q := by
  obtain ⟨hframe, hsummary, hans, hout⟩ := h
  exact ⟨hframe, hsummary, answered_congr hans rfl rfl, ramOutside_congr hout rfl rfl⟩

/-- Settles O42: CLOSE_LOT in each state of the lot and of the touchdown. -/
theorem closeLotClosesOrDrains : Obligations.CloseLotClosesOrDrains := by
  intro s hram hlaw hp
  cases hlot : s.lot.state with
  | noLot =>
    have hclose : closeLot (accept s) = answer (accept s) .badState 0 [] := by
      have : (accept s).lot.state = .noLot := hlot
      rw [closeLot, this]
    obtain ⟨hans, hout, hchanges⟩ := answer_of_accepted_same (s := s) rfl hram rfl .badState 0 [] (by simp)
    rw [← hclose] at hans hout hchanges
    refine ⟨closeLot (accept s), exec_request_of_answered (word := 2) (by simp) hlaw hp hans, fun _ => ⟨?_, hans, hout⟩,
      fun h => by simp at h, fun h => by simp at h⟩
    rw [hchanges]
    rfl
  | draining =>
    exact ⟨_, (exec_request_of_posted (code := 2) (by simp) hp).2, fun h => by simp at h, fun h => by simp at h,
      fun h => by simp at h⟩
  | opened =>
    by_cases ht : s.touchdown.state = .idle ∨ s.touchdown.state = .waitLift
    · have hclose : closeLot (accept s) = closingSteps (accept s) := by
        have h1 : (accept s).lot.state = .opened := hlot
        rw [closeLot, h1]
        rcases ht with ht | ht
        · have h2 : (accept s).touchdown.state = .idle := ht
          rw [h2]
        · have h2 : (accept s).touchdown.state = .waitLift := ht
          rw [h2]
      have hclosed := lotClosed_of_accept (closingSteps_closes (s := accept s) hram (accept_inProgress s))
      rw [← hclose] at hclosed
      refine ⟨closeLot (accept s), exec_request_of_answered (word := 2) (by simp) hlaw hp hclosed.2.2.1, fun h => by simp at h,
        fun _ _ => hclosed, fun _ h => ?_⟩
      rcases ht with ht | ht <;> simp [ht] at h
    · have hdrains : closeLot (accept s) = setLot (accept s) { s.lot with state := .draining } := by
        have h1 : (accept s).lot.state = .opened := hlot
        rw [closeLot, h1]
        cases h2 : s.touchdown.state with
        | idle => exact absurd (.inl h2) ht
        | waitLift => exact absurd (.inr h2) ht
        | settling =>
          have h2' : (accept s).touchdown.state = .settling := h2
          rw [h2']
          rfl
        | active =>
          have h2' : (accept s).touchdown.state = .active := h2
          rw [h2']
          rfl
      refine ⟨closeLot (accept s), exec_request_of_busy (word := 2) (by simp) hp ?_, fun h => by simp at h,
        fun _ h => absurd h ht, fun _ _ => ?_⟩
      · show (closeLot (accept s)).requests.busy = true
        rw [hdrains]
        rfl
      · rw [hdrains, accept_of_posted hp]
        rfl

/-! ## ABORT_TOUCHDOWN (R82) -/

/-- Settles O51: the abort is refused, or kept in progress with the interruptions sent. -/
theorem abortTouchdownInterruptsTheSites : Obligations.AbortTouchdownInterruptsTheSites := by
  intro s hram hlaw hp
  by_cases hactive : s.touchdown.state = .active
  · have busy {t : State} (ht : abortTouchdown (accept s) = t) (hb : t.requests.busy = true) :
        exec .abortTouchdown s = .next t := by
      subst ht
      exact exec_request_of_busy (word := 8) (by simp) hp hb
    cases hreason : s.touchdown.endReason with
    | some reason =>
      have habort : abortTouchdown (accept s) = setTouchdown (accept s) { s.touchdown with abortPending := true } := by
        have : (accept s).touchdown.endReason = some reason := hreason
        rw [abortTouchdown, if_pos (show (accept s).touchdown.state = .active from hactive), this]
        rfl
      refine ⟨_, busy habort rfl, fun h => absurd hactive h, fun _ => ⟨?_, fun i => ?_⟩⟩
      · rw [accept_of_posted hp]
        simp [setTouchdown, hreason]
      · rfl
    | none =>
      have habort : abortTouchdown (accept s) = interruptWorking
          (setTouchdown (accept s) { s.touchdown with abortPending := true, endReason := some .aborted }) .aborted := by
        have : (accept s).touchdown.endReason = none := hreason
        rw [abortTouchdown, if_pos (show (accept s).touchdown.state = .active from hactive), this]
        rfl
      rw [interruptWorking_eq] at habort
      refine ⟨_, busy habort rfl, fun h => absurd hactive h, fun _ => ⟨?_, fun i => ?_⟩⟩
      · rw [accept_of_posted hp]
        simp [setTouchdown]
      · rw [channelOf_map]
        simp only [sendInterruption, true_and, ite_not]
        rfl
  · have habort : abortTouchdown (accept s) = answer (accept s) .badState s.touchdown.state.code [] := if_neg hactive
    obtain ⟨hans, hout, hchanges⟩ := answer_of_accepted_same (s := s) rfl hram rfl .badState s.touchdown.state.code [] (by simp)
    rw [← habort] at hans hout hchanges
    refine ⟨abortTouchdown (accept s), exec_request_of_answered (word := 8) (by simp) hlaw hp hans, fun _ => ⟨?_, hans, hout⟩,
      fun h => absurd h hactive⟩
    rw [hchanges]
    rfl

end Sys2Proof.Machine
end

section
/-!
The fuse image: where the fields of a target stand (R40 to R44), how many blows an image needs (R56), why a partly blown binding
never reads as valid (R51), and the tests on a readback (R49 to R55).
-/

namespace Sys2Proof.Machine

/-! ## Counting bits -/

theorem countP_range_add (a b : Nat) (f : Nat → Bool) :
    (List.range (a + b)).countP f = (List.range a).countP f + (List.range b).countP fun p => f (a + p) := by
  rw [List.range_add, List.countP_append, List.countP_map]
  rfl

theorem countP_range_congr {n : Nat} {f g : Nat → Bool} (h : ∀ p, p < n → f p = g p) :
    (List.range n).countP f = (List.range n).countP g :=
  List.countP_congr fun p hp => by rw [h p (List.mem_range.mp hp)]

theorem countP_range_not (n : Nat) (f : Nat → Bool) :
    (List.range n).countP (fun p => !f p) = n - (List.range n).countP f := by
  have h := List.length_eq_countP_add_countP f (l := List.range n)
  rw [List.length_range] at h
  have hnot : (List.range n).countP (fun p => !f p) = (List.range n).countP fun p => decide ¬ f p = true :=
    countP_range_congr fun p _ => by simp
  omega

theorem countP_range_le (n : Nat) (f : Nat → Bool) : (List.range n).countP f ≤ n := by
  simpa using List.countP_le_length (p := f) (l := List.range n)

theorem countP_range_pos {n : Nat} {f : Nat → Bool} (h : 0 < (List.range n).countP f) : ∃ p, p < n ∧ f p = true := by
  obtain ⟨p, hp, hf⟩ := List.countP_pos_iff.mp h
  exact ⟨p, List.mem_range.mp hp, hf⟩

/-- Of two sets of positions, one within the other and as large, each is the other. -/
theorem eq_of_countP_le {n : Nat} {f g : Nat → Bool} (hsub : ∀ p, p < n → f p = true → g p = true)
    (hle : (List.range n).countP g ≤ (List.range n).countP f) : ∀ p, p < n → f p = g p := by
  induction n with
  | zero => exact fun p hp => absurd hp (Nat.not_lt_zero p)
  | succ n ih =>
    have hrest : (List.range n).countP f ≤ (List.range n).countP g :=
      List.countP_mono_left fun p hp => hsub p (Nat.lt_succ_of_lt (List.mem_range.mp hp))
    rw [List.range_succ, List.countP_append, List.countP_append, List.countP_singleton, List.countP_singleton] at hle
    have hlast : f n = g n := by
      cases hf : f n with
      | true => exact (hsub n (Nat.lt_succ_self n) hf).symm
      | false =>
        cases hg : g n with
        | false => rfl
        | true => simp [hf, hg] at hle; omega
    have hcount : (List.range n).countP g ≤ (List.range n).countP f := by rw [hlast] at hle; omega
    intro p hp
    rcases Nat.lt_succ_iff_lt_or_eq.mp hp with hp | rfl
    · exact ih (fun q hq => hsub q (Nat.lt_succ_of_lt hq)) hcount p hp
    · exact hlast

/-- The ones of a binary number. -/
def onesOf (n k : Nat) : Nat := (List.range n).countP fun b => k.testBit b

theorem testBit_bitSum (bs : List Bool) (j : Nat) : (bitSum bs).testBit j = bs.getD j false := by
  induction bs generalizing j with
  | nil => simp [bitSum]
  | cons b bs ih =>
    cases j with
    | zero => cases b <;> simp [bitSum, Nat.testBit_zero]
    | succ j =>
      have hhalf : (b.toNat + 2 * bitSum bs) / 2 = bitSum bs := by cases b <;> simp; omega
      rw [bitSum, Nat.testBit_succ, hhalf, ih, List.getD_cons_succ]

/-! ## The words of a target -/

/-- The index as a target holds it. -/
abbrev indexBits (index : Nat) : BitVec 24 := BitVec.ofNat 24 index

/-- The key check of a key (R44). -/
abbrev keyCheckOf (k : Key) : Nat := keyCheck (keyWords k)

/-- The twelve image words of a target. -/
def targetWords (tag : Byte) (index : Nat) (k : Key) : List Half :=
  [(indexBits index).extractLsb' 0 16, tag ++ ((indexBits index).extractLsb' 16 8 : Byte),
      0x8000#16 ||| BitVec.ofNat 16 (bindingCheck tag (indexBits index))] ++
    (keyWords k).map storedKeyWord ++
    [BitVec.ofNat 16 (polarityMask (keyWords k)) ||| (BitVec.ofNat 16 (keyCheckOf k) <<< 8)]

theorem keyWords_length (k : Key) : (keyWords k).length = 8 := rfl

theorem target_getLsbD (tag : Byte) (index : Nat) (k : Key) {w b p : Nat} (hp : p = 16 * w + b) (hw : w < 12) (hb : b < 16) :
    (composeTarget tag index k).getLsbD p = ((targetWords tag index k).getD w 0).getLsbD b := by
  have h := imageOfWords_getLsbD (targetWords tag index k) (p := p) (by omega)
  rw [show p / 16 = w by omega, show p % 16 = b by omega] at h
  exact h

section

variable (tag : Byte) (index : Nat) (k : Key)

/-- The binding data of a target (R40). -/
theorem target_data {p : Nat} (hp : p < 32) :
    (composeTarget tag index k).getLsbD p = (bindingData tag (indexBits index)).getLsbD p := by
  have happ : (bindingData tag (indexBits index)).getLsbD p =
      if p < 24 then (indexBits index).getLsbD p else tag.getLsbD (p - 24) := BitVec.getLsbD_append
  by_cases h16 : p < 16
  · rw [target_getLsbD tag index k (w := 0) (b := p) (by omega) (by omega) h16, happ, if_pos (by omega)]
    show ((indexBits index).extractLsb' 0 16).getLsbD p = _
    simp [h16]
  · rw [target_getLsbD tag index k (w := 1) (b := p - 16) (by omega) (by omega) (by omega), happ]
    have hword : (tag ++ ((indexBits index).extractLsb' 16 8 : Byte) : Half).getLsbD (p - 16) =
        if p - 16 < 8 then ((indexBits index).extractLsb' 16 8).getLsbD (p - 16) else tag.getLsbD (p - 16 - 8) :=
      BitVec.getLsbD_append
    show (tag ++ ((indexBits index).extractLsb' 16 8 : Byte) : Half).getLsbD (p - 16) = _
    rw [hword]
    by_cases h24 : p < 24
    · rw [if_pos h24, if_pos (by omega), BitVec.getLsbD_extractLsb']
      simp [show p - 16 < 8 by omega, show 16 + (p - 16) = p by omega]
    · rw [if_neg h24, if_neg (by omega), show p - 16 - 8 = p - 24 by omega]

theorem getLsbD_bindingData_index (idx : BitVec 24) {p : Nat} (hp : p < 24) :
    (bindingData tag idx).getLsbD p = idx.getLsbD p := by
  have happ : (bindingData tag idx).getLsbD p = if p < 24 then idx.getLsbD p else tag.getLsbD (p - 24) := BitVec.getLsbD_append
  rw [happ, if_pos hp]

theorem getLsbD_bindingData_tag (idx : BitVec 24) (b : Nat) : (bindingData tag idx).getLsbD (24 + b) = tag.getLsbD b := by
  have happ : (bindingData tag idx).getLsbD (24 + b) = if 24 + b < 24 then idx.getLsbD (24 + b) else tag.getLsbD (24 + b - 24) :=
    BitVec.getLsbD_append
  rw [happ, if_neg (by omega), Nat.add_sub_cancel_left]

theorem bindingCheck_le (idx : BitVec 24) : bindingCheck tag idx ≤ 32 := Nat.sub_le _ _

/-- The word of the binding check and the lock fuse (R41, R42). -/
theorem target_check {b : Nat} (hb : b < 16) :
    (composeTarget tag index k).getLsbD (32 + b) =
      (decide (b = 15) || (bindingCheck tag (indexBits index)).testBit b) := by
  rw [target_getLsbD tag index k (w := 2) (b := b) (by omega) (by omega) hb]
  show (0x8000#16 ||| BitVec.ofNat 16 (bindingCheck tag (indexBits index))).getLsbD b = _
  have hlock : (0x8000#16).getLsbD b = decide (b = 15) := by
    have h : ∀ b : Fin 16, (0x8000#16).getLsbD b = decide (b.val = 15) := by decide
    exact h ⟨b, hb⟩
  rw [BitVec.getLsbD_or, hlock, BitVec.getLsbD_ofNat]
  simp [hb]

theorem testBit_bindingCheck (idx : BitVec 24) {b : Nat} (hb : 6 ≤ b) : (bindingCheck tag idx).testBit b = false :=
  Nat.testBit_lt_two_pow (Nat.lt_of_le_of_lt (bindingCheck_le tag idx)
    (Nat.lt_of_lt_of_le (by decide : 32 < 2 ^ 6) (Nat.pow_le_pow_right (by decide) hb)))

/-- The bits of a key word as stored (R43). -/
theorem getLsbD_storedKeyWord (w : Half) {b : Nat} (hb : b < 16) :
    (storedKeyWord w).getLsbD b = (w.getLsbD b ^^ polarityOf w) := by
  unfold storedKeyWord polarityOf
  split
  next h => simp [h, hb]
  next h => simp [h]

/-- The key words of a target, stored (R43). -/
theorem target_key {j b : Nat} (hj : j < 8) (hb : b < 16) :
    (composeTarget tag index k).getLsbD (48 + 16 * j + b) = (storedKeyWord ((keyWords k).getD j 0)).getLsbD b := by
  rw [target_getLsbD tag index k (w := 3 + j) (b := b) (by omega) (by omega) hb]
  have hword : (targetWords tag index k).getD (3 + j) 0 = storedKeyWord ((keyWords k).getD j 0) := by
    obtain rfl | rfl | rfl | rfl | rfl | rfl | rfl | rfl :
      j = 0 ∨ j = 1 ∨ j = 2 ∨ j = 3 ∨ j = 4 ∨ j = 5 ∨ j = 6 ∨ j = 7 := by omega
    all_goals rfl
  rw [hword]

theorem testBit_polarityMask {j : Nat} (hj : j < 8) :
    (polarityMask (keyWords k)).testBit j = polarityOf ((keyWords k).getD j 0) := by
  rw [polarityMask, testBit_bitSum]
  obtain rfl | rfl | rfl | rfl | rfl | rfl | rfl | rfl :
    j = 0 ∨ j = 1 ∨ j = 2 ∨ j = 3 ∨ j = 4 ∨ j = 5 ∨ j = 6 ∨ j = 7 := by omega
  all_goals rfl

theorem testBit_polarityMask_beyond {j : Nat} (hj : 8 ≤ j) : (polarityMask (keyWords k)).testBit j = false := by
  rw [polarityMask, testBit_bitSum]
  exact List.getD_eq_default _ _ (by simpa [keyWords_length] using hj)

/-- The last word of a target: the polarity fuses below the key check (R43, R44). -/
theorem target_last {b : Nat} (hb : b < 16) :
    (composeTarget tag index k).getLsbD (176 + b) =
      if b < 8 then polarityOf ((keyWords k).getD b 0) else (keyCheckOf k).testBit (b - 8) := by
  rw [target_getLsbD tag index k (w := 11) (b := b) (by omega) (by omega) hb]
  show (BitVec.ofNat 16 (polarityMask (keyWords k)) ||| (BitVec.ofNat 16 (keyCheckOf k) <<< 8)).getLsbD b = _
  rw [BitVec.getLsbD_or, BitVec.getLsbD_shiftLeft, BitVec.getLsbD_ofNat, BitVec.getLsbD_ofNat]
  split
  next h => rw [testBit_polarityMask k h]; simp [h, hb]
  next h => rw [testBit_polarityMask_beyond k (by omega)]; simp [h, hb, show b - 8 < 16 by omega]

/-! ## Blows by field (R43, R44, R56) -/

theorem onesBelow_not (w : Half) : onesBelow (~~~ w) 16 = 16 - onesBelow w 16 := by
  rw [onesBelow, onesBelow, ← countP_range_not]
  exact countP_range_congr fun b hb => by simp [hb]

theorem keyWordBlows_eq (w : Half) :
    keyWordBlows w = if 9 ≤ onesBelow w 16 then 16 - onesBelow w 16 + 1 else onesBelow w 16 := by
  unfold keyWordBlows storedKeyWord polarityOf
  split
  next h => rw [onesBelow_not]; simp [h]
  next h => simp [h]

theorem keyWordBlows_le (w : Half) : keyWordBlows w ≤ 8 := by
  rw [keyWordBlows_eq]
  split <;> omega

/-- The blows of the key field: those of the eight key words. -/
def keyBlows (k : Key) : Nat := ((keyWords k).map keyWordBlows).sum

theorem keyBlows_le : keyBlows k ≤ 64 := by
  have h (w : Half) := keyWordBlows_le w
  simp only [keyBlows, keyWords, List.map_cons, List.map_nil, List.sum_cons, List.sum_nil]
  have := h (k.k0.extractLsb' 16 16); have := h (k.k0.extractLsb' 0 16); have := h (k.k1.extractLsb' 16 16)
  have := h (k.k1.extractLsb' 0 16); have := h (k.k2.extractLsb' 16 16); have := h (k.k2.extractLsb' 0 16)
  have := h (k.k3.extractLsb' 16 16); have := h (k.k3.extractLsb' 0 16)
  omega

theorem keyCheckOf_eq : keyCheckOf k = 136 - keyBlows k := rfl

/-- The blows of the binding data. -/
theorem target_data_count :
    (List.range 32).countP (fun p => (composeTarget tag index k).getLsbD p) =
      onesBelow (bindingData tag (indexBits index)) 32 :=
  countP_range_congr fun _ hp => target_data tag index k hp

theorem target_check_count :
    (List.range 6).countP (fun b => (composeTarget tag index k).getLsbD (32 + b)) =
      onesOf 6 (bindingCheck tag (indexBits index)) :=
  countP_range_congr fun b hb => by
    rw [target_check tag index k (by omega)]
    simp [show b ≠ 15 by omega]

/-- The blows of the key field. -/
theorem target_key_count :
    (List.range 136).countP (fun p => (composeTarget tag index k).getLsbD (48 + p)) = keyBlows k := by
  have word (j : Nat) (hj : j < 8) :
      (List.range 16).countP (fun b => (composeTarget tag index k).getLsbD (48 + (16 * j + b))) =
        onesBelow (storedKeyWord ((keyWords k).getD j 0)) 16 :=
    countP_range_congr fun b hb => by rw [← Nat.add_assoc]; exact target_key tag index k hj hb
  have words (n : Nat) (hn : n ≤ 8) :
      (List.range (16 * n)).countP (fun p => (composeTarget tag index k).getLsbD (48 + p)) =
        ((List.range n).map fun j => onesBelow (storedKeyWord ((keyWords k).getD j 0)) 16).sum := by
    induction n with
    | zero => rfl
    | succ n ih =>
      rw [Nat.mul_succ, countP_range_add, ih (by omega), word n (by omega), List.range_succ, List.map_append, List.sum_append]
      simp
  have polarity :
      (List.range 8).countP (fun j => (composeTarget tag index k).getLsbD (48 + (128 + j))) =
        (List.range 8).countP fun j => polarityOf ((keyWords k).getD j 0) :=
    countP_range_congr fun j hj => by
      have := target_last tag index k (b := j) (by omega)
      rw [if_pos hj] at this
      rw [← this, show 48 + (128 + j) = 176 + j by omega]
  have flag (b : Bool) : (if b = true then 1 else 0) = b.toNat := by cases b <;> rfl
  rw [show 136 = 16 * 8 + 8 from rfl, countP_range_add, words 8 (by omega), polarity]
  simp only [keyBlows, keyWordBlows, keyWords, List.range, List.range.loop, List.map_cons, List.map_nil, List.sum_cons,
    List.sum_nil, List.countP_cons, List.countP_nil, List.getD_cons_zero, List.getD_cons_succ, flag]
  omega

theorem target_keyCheck_count :
    (List.range 8).countP (fun b => (composeTarget tag index k).getLsbD (184 + b)) = onesOf 8 (keyCheckOf k) :=
  countP_range_congr fun b hb => by
    have := target_last tag index k (b := 8 + b) (by omega)
    rw [if_neg (by omega), Nat.add_sub_cancel_left, ← Nat.add_assoc] at this
    exact this

end

/-! ## The blows of an image (R56) -/

section

variable (tag : Byte) (index : Nat) (k : Key)

/-- The blows of the binding data of a target. -/
def dataBlows : Nat := onesBelow (bindingData tag (indexBits index)) 32

theorem dataBlows_le : dataBlows tag index ≤ 32 := countP_range_le 32 _

theorem bindingCheck_eq : bindingCheck tag (indexBits index) = 32 - dataBlows tag index := rfl

/-- The ones of a count check and of what it counts, for every count that can occur. -/
theorem checkOnes_bounds :
    (∀ d, d ≤ 32 → 1 ≤ d + onesOf 6 (32 - d) ∧ d + onesOf 6 (32 - d) ≤ 32) ∧
      ∀ f, f ≤ 64 → 2 ≤ f + onesOf 8 (136 - f) ∧ f + onesOf 8 (136 - f) ≤ 66 ∧ onesOf 8 (136 - f) ≤ 7 := by
  have hdata : ∀ d : Fin 33, 1 ≤ d.val + onesOf 6 (32 - d.val) ∧ d.val + onesOf 6 (32 - d.val) ≤ 32 := by decide
  have hkey : ∀ f : Fin 65, 2 ≤ f.val + onesOf 8 (136 - f.val) ∧ f.val + onesOf 8 (136 - f.val) ≤ 66 ∧
      onesOf 8 (136 - f.val) ≤ 7 := by decide
  exact ⟨fun d hd => hdata ⟨d, by omega⟩, fun f hf => hkey ⟨f, by omega⟩⟩

/-- The blows of binding data and check. -/
theorem target_binding_count :
    (List.range 38).countP (fun p => (composeTarget tag index k).getLsbD p) =
      dataBlows tag index + onesOf 6 (32 - dataBlows tag index) := by
  rw [show 38 = 32 + 6 from rfl, countP_range_add, target_data_count, target_check_count]
  rfl

/-- The unused positions and the lock fuse (R42). -/
theorem target_unused {p : Nat} (h1 : 38 ≤ p) (h2 : p < 47) : (composeTarget tag index k).getLsbD p = false := by
  have h := target_check tag index k (b := p - 32) (by omega)
  rw [show 32 + (p - 32) = p by omega, testBit_bindingCheck tag _ (by omega)] at h
  simpa [show p - 32 ≠ 15 by omega] using h

theorem target_lock : (composeTarget tag index k).getLsbD 47 = true := by
  have h := target_check tag index k (b := 15) (by omega)
  simpa using h

/-- The blows of key field and key check. -/
theorem target_keyAndCheck_count :
    (List.range 144).countP (fun p => (composeTarget tag index k).getLsbD (48 + p)) =
      keyBlows k + onesOf 8 (136 - keyBlows k) := by
  rw [show 144 = 136 + 8 from rfl, countP_range_add, target_key_count]
  have h := target_keyCheck_count tag index k
  rw [keyCheckOf_eq] at h
  rw [← h]
  refine congrArg _ (countP_range_congr fun p _ => ?_)
  rw [← Nat.add_assoc]

/-- All the blows of a target, field by field. -/
theorem blownCount_target :
    blownCount (composeTarget tag index k) =
      dataBlows tag index + onesOf 6 (32 - dataBlows tag index) + 1 + (keyBlows k + onesOf 8 (136 - keyBlows k)) := by
  have hunused : (List.range 9).countP (fun p => (composeTarget tag index k).getLsbD (38 + p)) = 0 :=
    List.countP_eq_zero.mpr fun p hp => by
      have := List.mem_range.mp hp
      rw [target_unused tag index k (by omega) (by omega)]
      simp
  have hlock : (List.range 1).countP (fun p => (composeTarget tag index k).getLsbD (47 + p)) = 1 := by
    simp [target_lock]
  have hsplit (f : Nat → Bool) : (List.range 192).countP f =
      (List.range 38).countP f + (List.range 9).countP (fun p => f (38 + p)) + (List.range 1).countP (fun p => f (47 + p)) +
        (List.range 144).countP fun p => f (48 + p) := by
    rw [← countP_range_add 38 9, ← countP_range_add 47 1, ← countP_range_add 48 144]
  rw [blownCount, onesBelow, hsplit, hunused, hlock, target_keyAndCheck_count, target_binding_count]

end

/-- The zero index, tag and key take the least. -/
theorem blownCount_zero : blownCount (composeTarget 0 0 { k0 := 0, k1 := 0, k2 := 0, k3 := 0 }) = 4 := by
  have hdata : dataBlows 0 0 = 0 := by decide
  have hkey : keyBlows { k0 := 0, k1 := 0, k2 := 0, k3 := 0 } = 0 := by decide
  rw [blownCount_target, hdata, hkey]
  decide

/-- Settles O31: the bounds of each field, and their sum. -/
theorem blowsOfEveryImageAreBounded : Obligations.BlowsOfEveryImageAreBounded := by
  refine ⟨fun w ones hones => ?_, fun tag index k x _ hx => ?_, blownCount_zero⟩
  · subst hones
    exact ⟨keyWordBlows_eq w, keyWordBlows_le w⟩
  · subst hx
    obtain ⟨hdata, hkey⟩ := checkOnes_bounds
    obtain ⟨hd1, hd2⟩ := hdata _ (dataBlows_le tag index)
    obtain ⟨hk1, hk2, hk3⟩ := hkey _ (keyBlows_le k)
    rw [target_binding_count, target_key_count, target_keyCheck_count, target_keyAndCheck_count, blownCount_target]
    exact ⟨hd2, keyBlows_le k, hk3, hk2, target_lock tag index k, by omega, by omega⟩

/-! ## The fields of a target (R40 to R44) -/

theorem keyWords_getD_of_mem {k : Key} {j : Nat} {w : Half}
    (h : (j, w) ∈ [(0, k.k0.extractLsb' 16 16), (1, k.k0.extractLsb' 0 16), (2, k.k1.extractLsb' 16 16),
      (3, k.k1.extractLsb' 0 16), (4, k.k2.extractLsb' 16 16), (5, k.k2.extractLsb' 0 16), (6, k.k3.extractLsb' 16 16),
      (7, k.k3.extractLsb' 0 16)]) : j < 8 ∧ (keyWords k).getD j 0 = w := by
  simp only [List.mem_cons, Prod.mk.injEq, List.not_mem_nil, or_false] at h
  rcases h with ⟨rfl, rfl⟩ | ⟨rfl, rfl⟩ | ⟨rfl, rfl⟩ | ⟨rfl, rfl⟩ | ⟨rfl, rfl⟩ | ⟨rfl, rfl⟩ | ⟨rfl, rfl⟩ | ⟨rfl, rfl⟩ <;>
    exact ⟨by decide, rfl⟩

/-- The key check as it reads back (R44). -/
theorem target_keyCheck_toNat (tag : Byte) (index : Nat) (k : Key) :
    ((composeTarget tag index k).extractLsb' 184 8).toNat = keyCheckOf k := by
  have hword : (composeTarget tag index k).extractLsb' 184 8 = BitVec.ofNat 8 (keyCheckOf k) :=
    BitVec.eq_of_getLsbD_eq fun b hb => by
      have h := target_last tag index k (b := 8 + b) (by omega)
      rw [if_neg (by omega), Nat.add_sub_cancel_left, ← Nat.add_assoc] at h
      rw [BitVec.getLsbD_extractLsb', BitVec.getLsbD_ofNat, h]
  rw [hword, BitVec.toNat_ofNat]
  refine Nat.mod_eq_of_lt ?_
  rw [keyCheckOf_eq]
  omega

/-- The binding check as it reads back (R41). -/
theorem target_bindingCheck_toNat (tag : Byte) (index : Nat) (k : Key) :
    ((composeTarget tag index k).extractLsb' 32 6).toNat = bindingCheck tag (indexBits index) := by
  have hword : (composeTarget tag index k).extractLsb' 32 6 = BitVec.ofNat 6 (bindingCheck tag (indexBits index)) :=
    BitVec.eq_of_getLsbD_eq fun b hb => by
      rw [BitVec.getLsbD_extractLsb', BitVec.getLsbD_ofNat, target_check tag index k (by omega)]
      simp [show b ≠ 15 by omega]
  rw [hword, BitVec.toNat_ofNat]
  have := bindingCheck_le tag (indexBits index)
  omega

theorem target_index_bit (tag : Byte) {index : Nat} (k : Key) {b : Nat} (hb : b < 24) :
    (composeTarget tag index k).getLsbD b = index.testBit b := by
  rw [target_data tag index k (by omega), getLsbD_bindingData_index tag _ hb, BitVec.getLsbD_ofNat]
  simp [hb]

theorem target_tag_bit (tag : Byte) (index : Nat) (k : Key) {b : Nat} (hb : b < 8) :
    (composeTarget tag index k).getLsbD (24 + b) = tag.getLsbD b := by
  rw [target_data tag index k (by omega), getLsbD_bindingData_tag]

/-- Settles O30: each field of the target. -/
theorem targetImageHoldsItsFields : Obligations.TargetImageHoldsItsFields := by
  intro tag index k x _ hx
  subst hx
  refine ⟨fun b hb => target_index_bit tag k hb, fun b hb => target_tag_bit tag index k hb, ?_, target_lock tag index k,
    fun p h1 h2 => target_unused tag index k h1 h2, fun j w hw => ?_, ?_, ?_, ?_⟩
  · rw [target_bindingCheck_toNat, countP_range_not, target_data_count]
    rfl
  · obtain ⟨hj, rfl⟩ := keyWords_getD_of_mem hw
    refine ⟨?_, fun b hb => ?_⟩
    · rw [target_last tag index k (by omega), if_pos hj]
      rfl
    · rw [target_key tag index k hj hb, getLsbD_storedKeyWord _ hb]
      rfl
  · rw [target_keyCheck_toNat, countP_range_not, target_key_count, keyCheckOf_eq]
  · rw [target_keyCheck_toNat, keyCheckOf_eq]
    have := keyBlows_le k
    omega
  · rw [target_keyCheck_toNat, keyCheckOf_eq]
    omega

/-! ## Reading a binding (R50, R51) -/

theorem validBinding_iff (x : Image) :
    validBinding x = true ↔ (x.extractLsb' 32 6).toNat = (List.range 32).countP fun p => !x.getLsbD p := by
  rw [countP_range_not]
  simp [validBinding, onesBelow]

theorem testBit_readbackIndex (x : Image) (b : Nat) :
    (readbackIndex x).testBit b = (decide (b < 24) && x.getLsbD b) := by
  rw [readbackIndex, BitVec.testBit_toNat, BitVec.getLsbD_extractLsb', Nat.zero_add]

theorem getLsbD_readbackTag (x : Image) {b : Nat} (hb : b < 8) : (readbackTag x).getLsbD b = x.getLsbD (24 + b) := by
  rw [readbackTag, BitVec.getLsbD_extractLsb']
  simp [hb]

/-- A number whose bits are among those of another is no greater. -/
theorem toNat_le_of_bits {n : Nat} {a b : BitVec n} (h : ∀ i, i < n → a.getLsbD i = true → b.getLsbD i = true) :
    a.toNat ≤ b.toNat := by
  have hand : a &&& b = a := BitVec.eq_of_getLsbD_eq fun i hi => by
    rw [BitVec.getLsbD_and]
    cases ha : a.getLsbD i with
    | false => rfl
    | true => rw [h i hi ha]; rfl
  rw [← hand, BitVec.toNat_and]
  exact Nat.and_le_right

/-- A part of a binding that reads valid is the whole of it (R51): fewer blown data fuses ask for a greater check, and a part of
the check is not greater. -/
theorem eq_target_of_validBinding (tag : Byte) (index : Nat) (k : Key) {x : Image}
    (hsub : ∀ p, p < 38 → x.getLsbD p = true → (composeTarget tag index k).getLsbD p = true) (hvalid : validBinding x = true) :
    ∀ p, p < 38 → x.getLsbD p = (composeTarget tag index k).getLsbD p := by
  have hcheck : (x.extractLsb' 32 6).toNat = 32 - (List.range 32).countP fun p => x.getLsbD p :=
    ((validBinding_iff x).mp hvalid).trans (countP_range_not 32 _)
  have htarget := target_bindingCheck_toNat tag index k
  rw [bindingCheck_eq] at htarget
  have hcount := target_data_count tag index k
  change _ = dataBlows tag index at hcount
  have hdata : (List.range 32).countP (fun p => x.getLsbD p) ≤
      (List.range 32).countP fun p => (composeTarget tag index k).getLsbD p :=
    List.countP_mono_left fun p hp => hsub p (by have := List.mem_range.mp hp; omega)
  have hle : (x.extractLsb' 32 6).toNat ≤ ((composeTarget tag index k).extractLsb' 32 6).toNat :=
    toNat_le_of_bits fun b hb => by
      rw [BitVec.getLsbD_extractLsb', BitVec.getLsbD_extractLsb']
      simp only [hb, decide_true, Bool.true_and]
      exact hsub _ (by omega)
  have hd := dataBlows_le tag index
  have hlow : ∀ p, p < 32 → x.getLsbD p = (composeTarget tag index k).getLsbD p :=
    eq_of_countP_le (f := fun p => x.getLsbD p) (g := fun p => (composeTarget tag index k).getLsbD p)
      (fun p hp => hsub p (by omega)) (by omega)
  have hword : x.extractLsb' 32 6 = (composeTarget tag index k).extractLsb' 32 6 := BitVec.eq_of_toNat_eq (by omega)
  intro p hp
  by_cases h : p < 32
  · exact hlow p h
  · have hbit := congrArg (fun y : BitVec 6 => y.getLsbD (p - 32)) hword
    simpa [BitVec.getLsbD_extractLsb', show p - 32 < 6 by omega, show 32 + (p - 32) = p by omega] using hbit

theorem mem_blowOrder {p : Nat} : p ∈ blowOrder ↔ p < 192 := by
  simp only [blowOrder, lockPosition, List.mem_append, List.mem_filter, List.mem_range, List.mem_singleton, bne_iff_ne]
  omega

theorem mem_freshRemaining {target : Image} {p : Nat} : p ∈ freshRemaining target ↔ p < 192 ∧ target.getLsbD p = true := by
  rw [freshRemaining, List.mem_filter, mem_blowOrder]

theorem mem_resumeRemaining {target x : Image} {p : Nat} :
    p ∈ resumeRemaining target x ↔ p < 192 ∧ target.getLsbD p = true ∧ x.getLsbD p = false := by
  rw [resumeRemaining, List.mem_filter, mem_blowOrder]
  simp

/-- Settles O32: a part that reads valid is the target's binding. -/
theorem partBlownBindingIsNeverValid : Obligations.PartBlownBindingIsNeverValid := by
  intro tag index k target x hindex htarget hsub hvalid
  subst htarget
  have hsame := eq_target_of_validBinding tag index k hsub hvalid
  refine ⟨hsame, Nat.eq_of_testBit_eq fun b => ?_, BitVec.eq_of_getLsbD_eq fun b hb => ?_, fun p hp => ?_⟩
  · rw [testBit_readbackIndex]
    by_cases hb : b < 24
    · rw [hsame b (by omega), target_index_bit tag k hb]
      simp [hb]
    · rw [Nat.testBit_lt_two_pow (Nat.lt_of_lt_of_le hindex (Nat.pow_le_pow_right (by decide) (Nat.le_of_not_lt hb)))]
      simp [hb]
  · rw [getLsbD_readbackTag x hb, hsame _ (by omega), target_tag_bit tag index k hb]
  · obtain ⟨-, htargeted, hintact⟩ := mem_resumeRemaining.mp hp
    by_contra hlow
    rw [hsame p (by omega), htargeted] at hintact
    cases hintact

/-! ## The blow order (R46, R47) -/

theorem blowOrder_ascends : blowOrder.Pairwise fun p q => (q = 47 ∨ p < q) ∧ p ≠ 47 := by
  rw [blowOrder, List.pairwise_append]
  refine ⟨?_, List.pairwise_singleton _ _, fun p hp q hq => ?_⟩
  · refine ((List.pairwise_lt_range (n := 192)).filter fun p => p != lockPosition).imp_of_mem fun hp _ hlt => ?_
    exact ⟨.inr hlt, by simpa using (List.mem_filter.mp hp).2⟩
  · exact ⟨.inl (List.mem_singleton.mp hq), by simpa using (List.mem_filter.mp hp).2⟩

/-- Every phase of every image holds a targeted position. -/
theorem target_phases (tag : Byte) (index : Nat) (k : Key) :
    (∃ p, p < 38 ∧ (composeTarget tag index k).getLsbD p = true) ∧
      ∃ p, p < 144 ∧ (composeTarget tag index k).getLsbD (48 + p) = true := by
  obtain ⟨hdata, hkey⟩ := checkOnes_bounds
  refine ⟨countP_range_pos ?_, countP_range_pos (f := fun p => (composeTarget tag index k).getLsbD (48 + p)) ?_⟩
  · rw [target_binding_count]
    exact (hdata _ (dataBlows_le tag index)).1
  · rw [target_keyAndCheck_count]
    have := (hkey _ (keyBlows_le k)).1
    omega

/-- Settles O33: the order, the remaining sets, and the phases. -/
theorem blowOrderAndRemainingSet : Obligations.BlowOrderAndRemainingSet := by
  refine ⟨fun p => mem_blowOrder, blowOrder_ascends, fun target x p => ⟨mem_freshRemaining, mem_resumeRemaining⟩, fun p => ⟨?_, ?_⟩,
    rfl, fun tag index k _ phase hphase => ?_⟩
  · intro h
    exact if_pos h
  · intro h1 h2
    rw [phaseOf, if_neg (by omega), if_neg (by simp only [lockPosition]; omega)]
  · obtain ⟨⟨p, hp, hbind⟩, ⟨q, hq, hburn⟩⟩ := target_phases tag index k
    simp only [List.mem_cons, List.not_mem_nil, or_false] at hphase
    rcases hphase with rfl | rfl | rfl
    · exact ⟨p, mem_freshRemaining.mpr ⟨by omega, hbind⟩, if_pos hp⟩
    · refine ⟨48 + q, mem_freshRemaining.mpr ⟨by omega, hburn⟩, ?_⟩
      rw [phaseOf, if_neg (by omega), if_neg (by simp only [lockPosition]; omega)]
    · exact ⟨47, mem_freshRemaining.mpr ⟨by omega, target_lock tag index k⟩, rfl⟩

/-! ## The tests on a readback (R49 to R55) -/

/-- The first number of a range that satisfies a test. -/
theorem find?_range_eq_some {n p : Nat} {f : Nat → Bool} :
    (List.range n).find? f = some p ↔ p < n ∧ f p = true ∧ ∀ q, q < p → f q = false := by
  rw [List.find?_range_eq_some]
  simp [and_left_comm]

theorem find?_range_eq_none {n : Nat} {f : Nat → Bool} :
    (List.range n).find? f = none ↔ ∀ q, q < n → f q = false := by
  rw [List.find?_range_eq_none]
  simp

theorem lowestBlown_without {x y : Image} {p : Nat} :
    lowestBlown (x &&& ~~~ y) = some p ↔
      p < 192 ∧ x.getLsbD p = true ∧ y.getLsbD p = false ∧ ∀ q, q < p → x.getLsbD q = true → y.getLsbD q = true := by
  have hbit (q : Nat) (hq : q < 192) : (x &&& ~~~ y).getLsbD q = (x.getLsbD q && !y.getLsbD q) := by
    rw [BitVec.getLsbD_and, BitVec.getLsbD_not]
    simp [hq]
  rw [lowestBlown, find?_range_eq_some]
  constructor
  · rintro ⟨hp, hbad, hbefore⟩
    rw [hbit p hp] at hbad
    obtain ⟨hx, hy⟩ := Bool.and_eq_true_iff.mp hbad
    refine ⟨hp, hx, by simpa using hy, fun q hq hxq => ?_⟩
    have := hbefore q hq
    rw [hbit q (by omega), hxq] at this
    simpa using this
  · rintro ⟨hp, hx, hy, hbefore⟩
    refine ⟨hp, by rw [hbit p hp, hx, hy]; rfl, fun q hq => ?_⟩
    rw [hbit q (by omega)]
    cases hxq : x.getLsbD q with
    | false => rfl
    | true => rw [hbefore q hq hxq]; rfl

theorem isBlank_iff (x : Image) : isBlank x = true ↔ ∀ p, p < 192 → x.getLsbD p = false := by
  rw [isBlank, beq_iff_eq]
  constructor
  · rintro rfl p _
    simp
  · exact fun h => BitVec.eq_of_getLsbD_eq fun p hp => by rw [h p hp]; simp

/-- Settles O35: each test of a readback. -/
theorem readbackTests : Obligations.ReadbackTests := by
  intro x target
  refine ⟨isBlank_iff x, fun hblank => ?_, validBinding_iff x, testBit_readbackIndex x, fun b hb => getLsbD_readbackTag x hb,
    fun p => lowestBlown_without, fun p => lowestBlown_without, rfl, rfl⟩
  rw [isBlank, beq_iff_eq] at hblank
  subst hblank
  decide

/-- Settles O34: the first bad position of the word, or what p reads. -/
theorem verifyReadResults : Obligations.VerifyReadResults := by
  intro target p after word bad hp hbad
  have htest : (fun b => word.getLsbD b && (p / 16 * 16 + b != p) &&
      (!target.getLsbD (p / 16 * 16 + b) || after.contains (p / 16 * 16 + b))) = bad := funext fun b => by
    have hne (a : Nat) : (a != p) = decide (a ≠ p) := by by_cases h : a = p <;> simp [h]
    rw [hbad b, List.contains_eq_mem, hne]
  have hverify : verifyTest target p after word =
      match (List.range 16).find? bad with
      | some b => .unexpectedBlow (p / 16 * 16 + b)
      | none => if word.getLsbD (p % 16) then .verified else .notBlown := by
    rw [← htest]
    rfl
  rw [hverify]
  cases hfind : (List.range 16).find? bad with
  | some b =>
    obtain ⟨hb, hbb, hbefore⟩ := find?_range_eq_some.mp hfind
    have hnot : ¬ ∀ b, b < 16 → bad b = false := fun h => by rw [h b hb] at hbb; cases hbb
    refine ⟨fun q => ⟨fun h => ?_, ?_⟩, ⟨nofun, fun h => absurd h.1 hnot⟩, ⟨nofun, fun h => absurd h.1 hnot⟩⟩
    · exact ⟨b, hb, (VerifyResult.unexpectedBlow.inj h).symm, hbb, hbefore⟩
    · rintro ⟨c, hc, rfl, hbc, hcbefore⟩
      have hsome := find?_range_eq_some.mpr ⟨hc, hbc, hcbefore⟩
      rw [hfind] at hsome
      rw [Option.some.inj hsome]
  | none =>
    have hall := find?_range_eq_none.mp hfind
    refine ⟨fun q => ⟨fun h => ?_, ?_⟩, ?_, ?_⟩
    · dsimp only at h
      split at h <;> cases h
    · rintro ⟨c, hc, -, hbc, -⟩
      rw [hall c hc] at hbc
      cases hbc
    · cases hword : word.getLsbD (p % 16)
      · simpa using hall
      · simp
    · cases hword : word.getLsbD (p % 16)
      · simp
      · simpa using hall

end Sys2Proof.Machine
end

section
/-!
Product profiles: the windows of a profile that passes (R65), and the fields of a record with their clamps (R57 to R62).
-/

namespace Sys2Proof.Machine

/-! ## The windows of a profile that passes (R65) -/

/-- A list of windows without a fault: each enabled one is in order and clear of the span. -/
theorem windowFault_eq_zero {u : Profile} {ws : List Window} {k : Nat} (h : windowFault u ws k = 0) :
    ∀ w ∈ ws, w.enabled = true → w.first.toNat ≤ w.last.toNat ∧ windowOverlaps u w = false := by
  induction ws generalizing k with
  | nil => exact fun w hw => by simp at hw
  | cons w ws ih =>
    unfold windowFault at h
    split at h
    · omega
    next hrev =>
      split at h
      · omega
      next hover =>
        intro w' hw' hen
        rcases List.mem_cons.mp hw' with rfl | hw'
        · simp only [hen, Bool.true_and, decide_eq_true_eq] at hrev hover
          exact ⟨Nat.le_of_not_lt (by simpa using hrev), by simpa using hover⟩
        · exact ih h w' hw' hen

/-- A profile that passes: its span fits, and its windows have no fault. -/
theorem passing_of_faultCode {u : Profile} {capacity : Nat} (h : faultCode u capacity = 0) :
    u.baseWord + 12 ≤ u.minWords ∧ windowFault u u.windows 0 = 0 := by
  unfold faultCode at h
  split at h
  · omega
  · split at h
    · omega
    · split at h
      · omega
      next h1 h2 h3 => exact ⟨Nat.le_of_not_lt h2, not_not.mp h3⟩

theorem usedProfile_minWords_le (p : StoredProfile) : (usedProfile p).minWords ≤ 256 := by
  show clampNat 16 256 p.minWords.toNat ≤ 256
  rw [clampNat_eq_max_min (by decide)]
  omega

/-- Settles O37: the windows have no fault, and the span fits the used number of words. -/
theorem passingProfileKeepsWindowsClear : Obligations.PassingProfileKeepsWindowsClear := by
  intro stored capacity u hu _ hpass
  obtain ⟨hfits, hwindows⟩ := passing_of_faultCode hpass
  have hmin : u.minWords ≤ 256 := hu ▸ usedProfile_minWords_le stored
  refine ⟨fun w hw hen p hp hin => ?_, by omega, fun p hp => by omega⟩
  obtain ⟨horder, hclear⟩ := windowFault_eq_zero hwindows w hw hen
  have hover := (windowOverlaps_iff_shares_fuse u horder).mpr ⟨p, hp, hin⟩
  rw [hclear] at hover
  cases hover

/-! ## The record (R57 to R62) -/

/-- The four windows of a record, by their place. -/
theorem readProfile_windows (s : State) (k : Nat) {w : Nat} {v : Window} (h : (readProfile s k).windows[w]? = some v) :
    v = readWindow s.ram (atProfile k) w := by
  have hw : w < 4 := (List.getElem?_eq_some_iff.mp h).1
  obtain rfl | rfl | rfl | rfl : w = 0 ∨ w = 1 ∨ w = 2 ∨ w = 3 := by omega
  all_goals exact (Option.some.inj h).symm

theorem setWidth_eq_extractLsb' {n : Nat} (m : Nat) (x : BitVec n) : x.setWidth m = x.extractLsb' 0 m :=
  BitVec.eq_of_getLsbD_eq fun i hi => by
    rw [BitVec.getLsbD_setWidth, BitVec.getLsbD_extractLsb', Nat.zero_add]

/-- The used value of every field, as the rules write the clamps. -/
theorem usedProfile_eq (p : StoredProfile) :
    usedProfile p =
      { dieType := p.dieType
        minWords := max 16 (min 256 p.minWords.toNat)
        baseWord := p.baseWord.toNat
        baseWidth := max 10 (min 2000 p.baseWidth.toNat)
        refTemp := max (-40) (min 150 p.refTemp.toInt)
        gain := min 31 p.gain.toNat
        draw := max 5 (min 1000 p.draw.toNat)
        maxAttempts := max 1 (min 3 p.maxAttempts.toNat)
        responseLimit := max 2 (min 1000 p.responseLimit.toNat)
        windows := p.windows } := by
  rw [usedProfile, clampNat_eq_max_min (by decide), clampNat_eq_max_min (by decide), clampInt_eq_max_min (by decide),
    clampNat_eq_max_min (by decide), clampNat_eq_max_min (by decide), clampNat_eq_max_min (by decide),
    clampNat_eq_max_min (by decide), Nat.zero_max]

/-- A clamp changes a number exactly when the number lies outside the range. -/
theorem clamped_ne_iff {lo hi : Nat} (h : lo ≤ hi) (x : Nat) : max lo (min hi x) ≠ x ↔ ¬ (lo ≤ x ∧ x ≤ hi) := by omega

/-- Settles O38: the record as read, its used values, and each bit of the clamp mask. -/
theorem profileRecordIsReadAndClamped : Obligations.ProfileRecordIsReadAndClamped := by
  refine ⟨fun s k a p ha hp => ?_, fun p capacity => ⟨usedProfile_eq p, fun k => ?_⟩⟩
  · subst ha hp
    refine ⟨setWidth_eq_extractLsb' 16 (readWord s.ram (atProfile k)), rfl, rfl, rfl, rfl, rfl, rfl,
      setWidth_eq_extractLsb' 3 (readWord s.ram (atProfile k + 0x1C)), rfl, rfl,
      fun w v hv => ?_⟩
    obtain rfl := readProfile_windows s k hv
    exact ⟨bne_iff_ne, setWidth_eq_extractLsb' 16 (readWord s.ram (atProfile k + 0x28 + 12 * w)),
      setWidth_eq_extractLsb' 16 (readWord s.ram (atProfile k + 0x2C + 12 * w))⟩
  · have hgain : min 31 p.gain.toNat ≠ p.gain.toNat ↔ ¬ p.gain.toNat ≤ 31 := by omega
    have htemp : max (-40) (min 150 p.refTemp.toInt) ≠ p.refTemp.toInt ↔ ¬ (-40 ≤ p.refTemp.toInt ∧ p.refTemp.toInt ≤ 150) := by
      omega
    rw [clampMask, usedProfile_eq, usedCapacity_eq, testBit_bitSum, ← clamped_ne_iff (by decide), ← clamped_ne_iff (by decide),
      ← htemp, ← hgain, ← clamped_ne_iff (by decide), ← clamped_ne_iff (by decide), ← clamped_ne_iff (by decide),
      ← clamped_ne_iff (by decide)]
    obtain hk | rfl | rfl | rfl | rfl | rfl | rfl | rfl | rfl :
      8 ≤ k ∨ k = 0 ∨ k = 1 ∨ k = 2 ∨ k = 3 ∨ k = 4 ∨ k = 5 ∨ k = 6 ∨ k = 7 := by omega
    · rw [List.getD_eq_default _ _ (by simpa using hk)]
      simp only [Bool.false_eq_true, false_iff]
      omega
    all_goals simp

end Sys2Proof.Machine
end

section
/-!
The derivation unit: key requests, withdrawals and deliveries (R32 to R36), and what a delivered key makes of its channel.
-/

namespace Sys2Proof.Machine

/-! ## Key requests and withdrawals (R35, R36) -/

/-- `dispose`, in a state that differs in its blocks but not in its exchange RAM and active frame, disposes of the index. -/
theorem dispose_disposes_from {s u : State} {i : Site} {c : SiteChannel} (h : s.ram.wf) (hram : u.ram = s.ram)
    (hframe : u.touchdown.activeFrame = s.touchdown.activeFrame) (hc : channelOf u i = c) :
    disposed s (dispose u i) i c := by
  subst hc
  exact disposed_congr (dispose_disposes (ramOk_of_eq h hram) i) hram.symm hframe.symm

theorem exec_keyRequest {s : State} {i : Site} {b : BoundIndex} (ha : (channelOf s i).activity = .askingKey)
    (hb : (channelOf s i).bound = some b) :
    exec (.keyRequest i) s = .next (setActivity (setDerivation s (queueKey s i b)) i .awaitingKey) := by
  show execKeyRequest i s = _
  rw [execKeyRequest, ha, hb]
  rfl

/-- The oldest waiting request begins, with the lot number of this moment. -/
theorem beginNextKey_begins (l : LotController) (d : DerivationUnit) :
    (beginNextKey l d).waiting = d.waiting.tail ∧
      (beginNextKey l d).inProgress = d.waiting.head?.map (fun r =>
        { site := r.site, index := r.index, lotNumber := l.number, discarded := false }) := by
  cases hw : d.waiting with
  | nil => simp [beginNextKey, hw]
  | cons r rest => simp [beginNextKey, hw]

/-- Settles O28: a request joins the queue, and begins when the engine is idle; a withdrawal takes it out. -/
theorem keyRequestsAreQueuedAndWithdrawn : Obligations.KeyRequestsAreQueuedAndWithdrawn := by
  refine fun i s => ⟨fun b ha hb => ?_, fun ha hram => ?_⟩
  · rw [exec_keyRequest ha hb]
    refine ⟨_, rfl, by apply State.eq_of_fields <;> simp, fun j hj => ?_, by simp, ?_, fun hidle hempty => ?_, fun hbusy => ?_⟩
    · rw [channelOf_setActivity_ne _ _ _ _ hj, channelOf_setDerivation]
    · rw [sameSecret, setActivity_derivation, setDerivation_derivation]
      exact queueKey_secret s i b
    · rw [setActivity_derivation, setDerivation_derivation, queueKey, if_pos (by simp [hidle])]
      have := beginNextKey_begins s.lot { s.derivation with waiting := [{ site := i, index := b.index }] }
      simpa [hempty] using this
    · rw [setActivity_derivation, setDerivation_derivation, queueKey, if_neg (by simpa using hbusy)]
      exact ⟨rfl, rfl⟩
  · have hexec : exec (.keyWithdrawal i) s = .next (dispose (setDerivation s (withdrawKey s.derivation i)) i) :=
      congrArg Host.Outcome.next (if_pos ha)
    refine ⟨_, hexec, by apply State.eq_of_fields <;> simp, sitesElse_trans (fun j _ => rfl) (dispose_sitesElse _ i), ?_,
      dispose_disposes_from hram rfl rfl rfl, ?_, ?_⟩
    · simp [sameSecret, withdrawKey]
    · rw [(dispose_keeps _ _).2.2.2.2.2.2.1]
      exact List.filter_congr fun r _ => by simp [bne, Bool.beq_eq_decide_eq]
    · rw [(dispose_keeps _ _).2.2.2.2.2.2.1]
      refine Option.map_congr fun j => ?_
      by_cases hj : j.site = i
      · simp [hj]
      · simp [hj]

/-! ## A delivered key (R34, R39, R98 to R100) -/

/-- The channel at its next position: the phase of the first that remains, or CHECK when none does (R100, R103). -/
def atNextPosition (c : SiteChannel) : SiteChannel :=
  { c with
    state := (c.remaining.head?.map phaseOf).getD .check
    attempt := 1
    activity := .naming (if c.remaining = [] then .lowPoint else .arm) }

theorem nextPosition_goes (s : State) (i : Site) : channelOf (nextPosition s i) i = atNextPosition (channelOf s i) := by
  rw [nextPosition, channelOf_modifyChannel]
  cases hrest : (channelOf s i).remaining with
  | nil => simp [atNextPosition, hrest]
  | cons p rest => simp [atNextPosition, hrest]

/-- A fresh burn starts in BIND: a targeted position below 38 comes before every other in the blow order. -/
theorem freshRemaining_begins_in_bind (tag : Byte) (index : Nat) (k : Key) :
    ∃ p rest, freshRemaining (composeTarget tag index k) = p :: rest ∧ phaseOf p = .bind := by
  obtain ⟨⟨q, hq, htargeted⟩, -⟩ := target_phases tag index k
  have hmem : q ∈ freshRemaining (composeTarget tag index k) := mem_freshRemaining.mpr ⟨by omega, htargeted⟩
  have hsorted := blowOrder_ascends.filter fun p => (composeTarget tag index k).getLsbD p
  rw [← freshRemaining] at hsorted
  cases hrest : freshRemaining (composeTarget tag index k) with
  | nil => rw [hrest] at hmem; cases hmem
  | cons p rest =>
    refine ⟨p, rest, rfl, if_pos ?_⟩
    rw [hrest] at hmem hsorted
    rcases List.mem_cons.mp hmem with rfl | hin
    · exact hq
    · have := (List.rel_of_pairwise_cons hsorted hin).1
      omega

/-- A fresh site forms its remaining set and arms its first position in BIND. -/
theorem takeKey_fresh {s : State} {i : Site} {n : Nat} (k : Key)
    (hb : (channelOf s i).bound = some { index := n, kind := .fresh }) :
    channelOf (takeKey s i k) i =
      { channelOf s i with
        target := some (composeTarget (lotTag s.lot) n k)
        remaining := freshRemaining (composeTarget (lotTag s.lot) n k)
        state := .bind
        attempt := 1
        activity := .naming .arm } := by
  obtain ⟨p, rest, hrest, hphase⟩ := freshRemaining_begins_in_bind (lotTag s.lot) n k
  simp [takeKey, hb, nextPosition_goes, atNextPosition, hrest, hphase]

/-- A site that resumes and finds an overblown position spoils its index there. -/
theorem takeKey_overblown {s : State} {i : Site} {n p : Nat} (k : Key)
    (hb : (channelOf s i).bound = some { index := n, kind := .resumed })
    (hp : overblownAt (composeTarget (lotTag s.lot) n k) (channelOf s i).readback = some p) :
    channelOf (takeKey s i k) i =
      { channelOf s i with
        target := some (composeTarget (lotTag s.lot) n k)
        figures := { (channelOf s i).figures with failingPosition := some p }
        outcome := some .overblown
        activity := .reporting (.spoil .overblown) } := by
  simp [takeKey, hb, hp, spoilAt, reportOutcome]

/-- A site that resumes with no overblown position goes on with what reads intact. -/
theorem takeKey_resumed {s : State} {i : Site} {n : Nat} (k : Key)
    (hb : (channelOf s i).bound = some { index := n, kind := .resumed })
    (hp : overblownAt (composeTarget (lotTag s.lot) n k) (channelOf s i).readback = none) :
    channelOf (takeKey s i k) i =
      atNextPosition { channelOf s i with
        target := some (composeTarget (lotTag s.lot) n k)
        remaining := resumeRemaining (composeTarget (lotTag s.lot) n k) (channelOf s i).readback } := by
  simp [takeKey, hb, hp, nextPosition_goes]

/-- The overblown test passes when every blown position is targeted. -/
theorem overblownAt_eq_none {x y : Image} (h : ∀ p, p < 192 → y.getLsbD p = true → x.getLsbD p = true) :
    overblownAt x y = none := by
  cases ho : overblownAt x y with
  | none => rfl
  | some p =>
    obtain ⟨hp, hblown, hintact, -⟩ := lowestBlown_without.mp ho
    rw [h p hp hblown] at hintact
    cases hintact

/-- The state in which a delivered key is taken: the computation has ended, and the next request has begun. -/
def keyTurned (s : State) : State := setDerivation s (beginNextKey s.lot s.derivation)

theorem exec_keyDelivery {s : State} {i : Site} {n : Nat} {lot : Word} {discarded : Bool}
    (h : s.derivation.inProgress = some { site := i, index := n, lotNumber := lot, discarded := discarded }) :
    exec .keyDelivery s = .next
      (if discarded = false ∧ (channelOf s i).activity = .awaitingKey then
         takeKey (keyTurned s) i (deriveKey s.derivation.secret lot (BitVec.ofNat 32 n))
       else keyTurned s) := by
  show execKeyDelivery s = _
  rw [execKeyDelivery, h]
  cases discarded
  · simp [keyTurned, natWord]
  · simp [keyTurned]

/-- Settles O29: the key is taken by the channel that awaits it, and the next request begins. -/
theorem keyDeliveryBeginsTheBurnOrDiscards : Obligations.KeyDeliveryBeginsTheBurnOrDiscards := by
  intro i s n lot discarded c hc hjob
  subst hc
  have htag : s.lot.number.extractLsb' 0 8 = lotTag s.lot := (setWidth_eq_extractLsb' 8 s.lot.number).symm
  refine ⟨_, _, rfl, exec_keyDelivery hjob, ?_⟩
  rw [htag]
  generalize deriveKey s.derivation.secret lot (BitVec.ofNat 32 n) = k
  obtain ⟨t, ht⟩ : ∃ t, t = if discarded = false ∧ (channelOf s i).activity = .awaitingKey then takeKey (keyTurned s) i k
    else keyTurned s := ⟨_, rfl⟩
  rw [← ht]
  have hkeeps : t = { s with channels := t.channels, derivation := t.derivation } ∧
      t.derivation = beginNextKey s.lot s.derivation ∧ sitesElse s t i := by
    subst ht
    split
    · exact ⟨by apply State.eq_of_fields <;> simp [keyTurned], by simp [keyTurned],
        sitesElse_trans (t := keyTurned s) (fun j _ => rfl) (takeKey_sitesElse _ i k)⟩
    · exact ⟨rfl, rfl, fun j _ => rfl⟩
  obtain ⟨hframe, hderivation, hsites⟩ := hkeeps
  obtain ⟨hwaiting, hnext⟩ := beginNextKey_begins s.lot s.derivation
  refine ⟨hframe, hsites, ?_, by rw [hderivation, hwaiting], by rw [hderivation, hnext], fun hnot => ?_, ?_, ?_⟩
  · rw [sameSecret, hderivation]
    exact beginNextKey_secret _ _
  · rw [ht, if_neg (fun hx => hnot.elim (by simp [hx.1]) (fun hy => hy hx.2))]
    rfl
  · intro hd ha hb
    rw [ht, if_pos ⟨hd, ha⟩]
    exact takeKey_fresh (s := keyTurned s) k hb
  · intro hd ha hb
    rw [ht, if_pos ⟨hd, ha⟩]
    refine ⟨fun p hp hblown hintact hbefore => ?_, fun hclear => ⟨_, rfl, ?_⟩⟩
    · have hover : overblownAt (composeTarget (lotTag s.lot) n k) (channelOf s i).readback = some p :=
        lowestBlown_without.mpr ⟨hp, hblown, hintact, hbefore⟩
      rw [takeKey_overblown (s := keyTurned s) k hb hover]
      exact ⟨rfl, rfl, rfl⟩
    · exact takeKey_resumed (s := keyTurned s) k hb (overblownAt_eq_none hclear)

end Sys2Proof.Machine
end

section
/-!
Claims and reports of the sites, as the lot controller takes them (R6 to R13, R96, R97, R112).
-/

namespace Sys2Proof.Machine

/-! ## An answer to a claim (R112) -/

/-- What a channel does with the answer to a claim: `u` is the state in which it holds what the answer gave it, from which it
disposes when it was interrupted meanwhile, and `v` the state in which it goes on otherwise. -/
def claimAnswered (i : Site) (interrupted : Bool) (u v : State) : State := if interrupted then dispose u i else v

theorem claimAnswered_of_none {s u v : State} {i : Site} (h : (channelOf s i).interruption = none) :
    claimAnswered i (channelOf s i).interruption.isSome u v = v := by simp [claimAnswered, h]

theorem claimAnswered_disposes {s u v : State} {i : Site} {c : SiteChannel} (h : (channelOf s i).interruption ≠ none)
    (hwf : s.ram.wf) (hram : u.ram = s.ram) (hframe : u.touchdown = s.touchdown) (hc : channelOf u i = c) :
    disposed s (claimAnswered i (channelOf s i).interruption.isSome u v) i c := by
  rw [claimAnswered, if_pos (Option.isSome_iff_ne_none.mpr h)]
  exact dispose_disposes_from hwf hram (by rw [hframe]) hc

theorem claimAnswered_sitesElse {s u v : State} {i : Site} {interrupted : Bool} (hu : sitesElse s u i) (hv : sitesElse s v i) :
    sitesElse s (claimAnswered i interrupted u v) i := by
  unfold claimAnswered
  split
  · exact sitesElse_trans hu (dispose_sitesElse u i)
  · exact hv

theorem claimAnswered_lot {i : Site} {interrupted : Bool} {u v : State} (h : v.lot = u.lot) :
    (claimAnswered i interrupted u v).lot = u.lot := by
  unfold claimAnswered
  split
  · simp
  · exact h

theorem lotIsOpen_of {l : LotController} (h : l.state ≠ .noLot) : lotIsOpen l = true := by simpa [lotIsOpen] using h

/-! ## FRESH_CLAIM -/

/-- The channel of a site that is granted a fresh index, and the lot with it. -/
def freshGranted (s : State) (i : Site) : State :=
  setChannel (setLot s (afterFreshClaim s.lot)) i
    { channelOf s i with
      bound := some { index := s.lot.nextIndex, kind := .fresh }, pulseGranted := false, activity := .askingKey }

section

variable {s : State} {i : Site}

/-- The claim is refused with this outcome. -/
theorem exec_freshClaim_of_refused {o : Outcome} (ha : (channelOf s i).activity = .claimingFresh) (hl : s.lot.state ≠ .noLot)
    (h : (freshAnswer s.lot, o) ∈ [(FreshAnswer.noIndex, Outcome.noIndex), (.lotClosing, .lotClosing)]) :
    exec (.freshClaim i) s =
      .next (claimAnswered i (channelOf s i).interruption.isSome s (endDie s i o .none)) := by
  have hsame : setLot s (afterFreshClaim s.lot) = s := by
    rw [afterFreshClaim_of_refused fun n hn => by simp [hn] at h]
    rfl
  show execFreshClaim i s = _
  rw [execFreshClaim, if_pos ⟨ha, lotIsOpen_of hl⟩]
  dsimp only
  rw [hsame]
  simp only [List.mem_cons, Prod.mk.injEq, List.not_mem_nil, or_false] at h
  rcases h with ⟨h, rfl⟩ | ⟨h, rfl⟩
  all_goals
    rw [h]
    rfl

/-- The claim is granted next_index. -/
theorem exec_freshClaim_of_granted (ha : (channelOf s i).activity = .claimingFresh) (hl : s.lot.state ≠ .noLot)
    (h : freshAnswer s.lot = .granted s.lot.nextIndex) :
    exec (.freshClaim i) s =
      .next (claimAnswered i (channelOf s i).interruption.isSome (freshGranted s i) (freshGranted s i)) := by
  show execFreshClaim i s = _
  rw [execFreshClaim, if_pos ⟨ha, lotIsOpen_of hl⟩, h]
  rfl

end

/-- Settles O45: the three answers, each with the channel interrupted or not. -/
theorem freshClaimGrantsOrRefuses : Obligations.FreshClaimGrantsOrRefuses := by
  intro i s c hwf hc ha hl
  subst hc
  have refused {o : Outcome}
      (h : (freshAnswer s.lot, o) ∈ [(FreshAnswer.noIndex, Outcome.noIndex), (.lotClosing, .lotClosing)]) :
      ∃ t, exec (.freshClaim i) s = .next t ∧ t = { s with ram := t.ram, channels := t.channels, lot := t.lot } ∧
        sitesElse s t i ∧ t.lot = s.lot ∧
        ((channelOf s i).interruption = none → diedWith s t i (channelOf s i) o .none) ∧
        ((channelOf s i).interruption ≠ none → disposed s t i (channelOf s i)) := by
    refine ⟨_, exec_freshClaim_of_refused ha hl h, ?_, claimAnswered_sitesElse (sitesElse_refl s i) (endDie_sitesElse s i _ _),
      claimAnswered_lot (by simp), fun hn => ?_, fun hn => claimAnswered_disposes hn hwf rfl rfl rfl⟩
    · unfold claimAnswered
      split
      all_goals apply State.eq_of_fields <;> simp
    · rw [claimAnswered_of_none hn]
      exact endDie_ends hwf i o .none
  by_cases hlast : s.lot.nextIndex = s.lot.last + 1
  · have hanswer : freshAnswer s.lot = .noIndex := if_pos hlast
    obtain ⟨t, hexec, hframe, hsites, hlot, hdied, hdisposed⟩ := refused (o := .noIndex) (by simp [hanswer])
    exact ⟨t, hexec, hframe, hsites, fun _ hn => ⟨hlot, hdied hn⟩, fun h => absurd hlast h,
      fun _ hn => ⟨hlot, hdisposed hn⟩, fun h => absurd hlast h⟩
  · by_cases hdraining : s.lot.state = .draining
    · have hanswer : freshAnswer s.lot = .lotClosing := by rw [freshAnswer, if_neg hlast, if_pos hdraining]
      obtain ⟨t, hexec, hframe, hsites, hlot, hdied, hdisposed⟩ := refused (o := .lotClosing) (by simp [hanswer])
      exact ⟨t, hexec, hframe, hsites, fun h => absurd h hlast, fun _ _ hn => ⟨hlot, hdied hn⟩,
        fun _ hn => ⟨hlot, hdisposed hn⟩, fun _ h => by rw [hdraining] at h; cases h⟩
    · have hanswer : freshAnswer s.lot = .granted s.lot.nextIndex := by rw [freshAnswer, if_neg hlast, if_neg hdraining]
      have hsites : sitesElse s (freshGranted s i) i := fun j hj => channelOf_setChannel_ne _ i _ j hj
      refine ⟨_, exec_freshClaim_of_granted ha hl hanswer, ?_, claimAnswered_sitesElse hsites hsites, fun h => absurd h hlast,
        fun _ h => absurd h hdraining, fun h => h.elim (fun h => absurd h hlast) (fun h => absurd h hdraining),
        fun _ _ => ⟨?_, fun d hd => ⟨fun hn => ?_, fun hn => ?_⟩⟩⟩
      · unfold claimAnswered
        split
        all_goals apply State.eq_of_fields <;> simp [freshGranted]
      · rw [claimAnswered_lot rfl]
        exact (afterFreshClaim_of_granted hanswer).2
      · rw [claimAnswered_of_none hn, hd]
        exact ⟨rfl, channelOf_setChannel _ i _⟩
      · exact claimAnswered_disposes hn hwf rfl rfl (by rw [hd]; exact channelOf_setChannel _ i _)

/-! ## RESUME_CLAIM -/

/-- The answer of R10 to a claim of this channel. -/
def resumeAnswerTo (l : LotController) (c : SiteChannel) : ResumeAnswer :=
  resumeAnswer l (readbackIndex c.readback) c.waferId c.dieX c.dieY

/-- The channel of a site that is granted the index of its readback, and the lot with the entry claimed. -/
def resumeGranted (s : State) (i : Site) : State :=
  setChannel
    (setLot s (updateEntry s.lot (readbackIndex (channelOf s i).readback) fun e => { e with claimedBy := some i })) i
    { channelOf s i with
      bound := some { index := readbackIndex (channelOf s i).readback, kind := .resumed }, activity := .askingKey }

/-- The channel with the binding of its readback in its figures (R97). -/
def withBinding (c : SiteChannel) : SiteChannel :=
  { c with figures := { c.figures with readbackBinding := some (readbackIndex c.readback, readbackTag c.readback) } }

section

variable {s : State} {i : Site} (ha : (channelOf s i).activity = .claimingResume) (hl : s.lot.state ≠ .noLot)
include ha hl

theorem exec_resumeClaim_of_notListed (h : resumeAnswerTo s.lot (channelOf s i) = .notListed) :
    exec (.resumeClaim i) s = .next (claimAnswered i (channelOf s i).interruption.isSome s (notListed s i)) := by
  have hanswer : resumeAnswer s.lot (readbackIndex (channelOf s i).readback) (channelOf s i).waferId (channelOf s i).dieX
    (channelOf s i).dieY = .notListed := h
  show execResumeClaim i s = _
  rw [execResumeClaim, if_pos ⟨ha, lotIsOpen_of hl⟩]
  simp only [afterResumeClaim, hanswer]
  rfl

theorem exec_resumeClaim_of_mismatch (h : resumeAnswerTo s.lot (channelOf s i) = .mismatch) :
    exec (.resumeClaim i) s = .next (claimAnswered i (channelOf s i).interruption.isSome s
      (endDie (modifyChannel s i withBinding) i .bindingMismatch .none)) := by
  have hanswer : resumeAnswer s.lot (readbackIndex (channelOf s i).readback) (channelOf s i).waferId (channelOf s i).dieX
    (channelOf s i).dieY = .mismatch := h
  show execResumeClaim i s = _
  rw [execResumeClaim, if_pos ⟨ha, lotIsOpen_of hl⟩]
  simp only [afterResumeClaim, hanswer]
  rfl

theorem exec_resumeClaim_of_granted (h : resumeAnswerTo s.lot (channelOf s i) = .granted) :
    exec (.resumeClaim i) s =
      .next (claimAnswered i (channelOf s i).interruption.isSome (resumeGranted s i) (resumeGranted s i)) := by
  have hanswer : resumeAnswer s.lot (readbackIndex (channelOf s i).readback) (channelOf s i).waferId (channelOf s i).dieX
    (channelOf s i).dieY = .granted := h
  show execResumeClaim i s = _
  rw [execResumeClaim, if_pos ⟨ha, lotIsOpen_of hl⟩]
  simp only [afterResumeClaim, hanswer]
  rfl

/-- What a resume claim leaves, whatever the answer. -/
theorem exec_resumeClaim_frame :
    ∃ t, exec (.resumeClaim i) s = .next t ∧ t = { s with ram := t.ram, channels := t.channels, lot := t.lot } ∧
      sitesElse s t i := by
  cases h : resumeAnswerTo s.lot (channelOf s i) with
  | notListed =>
    refine ⟨_, exec_resumeClaim_of_notListed ha hl h, ?_,
      claimAnswered_sitesElse (sitesElse_refl s i) (notListed_sitesElse s i)⟩
    unfold claimAnswered
    split
    all_goals apply State.eq_of_fields <;> simp
  | mismatch =>
    refine ⟨_, exec_resumeClaim_of_mismatch ha hl h, ?_, claimAnswered_sitesElse (sitesElse_refl s i)
      (sitesElse_trans (modifyChannel_sitesElse s i _) (endDie_sitesElse _ i _ _))⟩
    unfold claimAnswered
    split
    all_goals apply State.eq_of_fields <;> simp
  | granted =>
    have hsites : sitesElse s (resumeGranted s i) i := fun j hj => channelOf_setChannel_ne _ i _ j hj
    refine ⟨_, exec_resumeClaim_of_granted ha hl h, ?_, claimAnswered_sitesElse hsites hsites⟩
    unfold claimAnswered
    split
    all_goals apply State.eq_of_fields <;> simp [resumeGranted]

end

/-- The answer of R10, by the entry that holds the index. -/
theorem resumeAnswerTo_of_entry {l : LotController} {c : SiteChannel} {e : ResumeEntry}
    (h : entryOf l (readbackIndex c.readback) = some e) :
    resumeAnswerTo l c =
      if e.claimedBy = none ∧ e.waferId = c.waferId ∧ e.dieX = c.dieX ∧ e.dieY = c.dieY then .granted else .mismatch := by
  simp [resumeAnswerTo, resumeAnswer, h]

theorem notListed_of_valid {s : State} {i : Site} (hwf : s.ram.wf) (h : validBinding (channelOf s i).readback = true) :
    diedWith s (notListed s i) i (withBinding (channelOf s i))
      (if isLocked (channelOf s i).readback then .lockedDie else .notBlank) .none := by
  have hends := endDie_ends (s := modifyChannel s i withBinding) hwf i
    (if isLocked (channelOf s i).readback then .lockedDie else .notBlank) .none
  rw [channelOf_modifyChannel] at hends
  have heq : notListed s i = endDie (modifyChannel s i withBinding) i
      (if isLocked (channelOf s i).readback then .lockedDie else .notBlank) .none := by
    simp [notListed, h, modifyChannel, withBinding]
  rw [heq]
  exact siteFinished_congr hends rfl rfl

/-- Settles O46: the three answers, each with the channel interrupted or not. -/
theorem resumeClaimGrantsOrRefuses : Obligations.ResumeClaimGrantsOrRefuses := by
  intro i s c n hwf hc ha hl hn
  subst hc hn
  obtain ⟨t, hexec, hframe, hsites⟩ := exec_resumeClaim_frame ha hl
  refine ⟨t, hexec, hframe, hsites, fun hnone => ?_, fun before e after hlist hindex hother => ⟨fun hno => ?_, fun hyes => ?_⟩⟩
  · have hanswer : resumeAnswerTo s.lot (channelOf s i) = .notListed := by
      simp [resumeAnswerTo, resumeAnswer, entryOf_none hnone]
    rw [exec_resumeClaim_of_notListed ha hl hanswer] at hexec
    cases hexec
    refine ⟨claimAnswered_lot (by simp), fun hno hvalid => ?_, fun hint => claimAnswered_disposes hint hwf rfl rfl rfl⟩
    rw [claimAnswered_of_none hno]
    exact notListed_of_valid hwf hvalid
  all_goals
    have hentry := entryOf_split hlist hindex fun x hx => hother x (List.mem_append_left _ hx)
    have hanswer := resumeAnswerTo_of_entry hentry
  · rw [if_neg hno] at hanswer
    rw [exec_resumeClaim_of_mismatch ha hl hanswer] at hexec
    cases hexec
    refine ⟨claimAnswered_lot (by simp), fun hno => ?_, fun hint => claimAnswered_disposes hint hwf rfl rfl rfl⟩
    rw [claimAnswered_of_none hno]
    have hends := endDie_ends (s := modifyChannel s i withBinding) hwf i .bindingMismatch .none
    rw [channelOf_modifyChannel] at hends
    exact siteFinished_congr hends rfl rfl
  · rw [if_pos hyes] at hanswer
    rw [exec_resumeClaim_of_granted ha hl hanswer] at hexec
    cases hexec
    refine ⟨?_, fun d hd => ⟨fun hno => ?_, fun hint => ?_⟩⟩
    · rw [claimAnswered_lot rfl]
      exact updateEntry_split _ hlist hindex hother
    · rw [claimAnswered_of_none hno, hd]
      exact ⟨rfl, channelOf_setChannel _ i _⟩
    · exact claimAnswered_disposes hint hwf rfl rfl (by rw [hd]; exact channelOf_setChannel _ i _)

/-! ## Reports -/

/-- The report of a site is taken: the lot by `afterReport`, the record and the channel with the disposition. -/
theorem takeReport_takes {s : State} {i : Site} {b : BoundIndex} (hwf : s.ram.wf) (hb : (channelOf s i).bound = some b)
    (r : Report) :
    takeReport s i r = { s with
        ram := (takeReport s i r).ram, channels := (takeReport s i r).channels, lot := (takeReport s i r).lot } ∧
      (takeReport s i r).lot =
        afterReport s.lot b (channelOf s i).waferId (channelOf s i).dieX (channelOf s i).dieY r ∧
      recordRestZero (takeReport s i r) i ∧
      siteFinished s (takeReport s i r) i (channelOf s i) (reportDisposition s.lot b r).1 (reportDisposition s.lot b r).2 := by
  obtain ⟨l, hl⟩ : ∃ l, l = afterReport s.lot b (channelOf s i).waferId (channelOf s i).dieX (channelOf s i).dieY r := ⟨_, rfl⟩
  have htake : takeReport s i r =
      finish (setLot s l) i (reportDisposition s.lot b r).1 (reportDisposition s.lot b r).2 := by
    simp [takeReport, hb, hl]
  rw [htake, ← hl]
  refine ⟨by apply State.eq_of_fields <;> simp, by simp, finish_rest (s := setLot s l) hwf i _ _, ?_⟩
  exact siteFinished_congr (finish_finishes (s := setLot s l) hwf i _ _) rfl rfl

/-- The command of a report takes it, while a lot is open. -/
theorem exec_report {s : State} {i : Site} {command : Instr} {r : Report} (hl : s.lot.state ≠ .noLot)
    (ha : (channelOf s i).activity = .reporting r)
    (h : (command, r) ∈ [(Instr.hold i, Report.hold), (.release i, .release), (.commit i, .commit)] ∨
      ∃ cause, command = .spoil i ∧ r = .spoil cause) : exec command s = .next (takeReport s i r) := by
  have hopen := lotIsOpen_of hl
  simp only [List.mem_cons, Prod.mk.injEq, List.not_mem_nil, or_false] at h
  rcases h with (⟨rfl, rfl⟩ | ⟨rfl, rfl⟩ | ⟨rfl, rfl⟩) | ⟨cause, rfl, rfl⟩
  · exact congrArg Host.Outcome.next (if_pos ⟨ha, hopen⟩)
  · exact congrArg Host.Outcome.next (if_pos ⟨ha, hopen⟩)
  · exact congrArg Host.Outcome.next (if_pos ⟨ha, hopen⟩)
  · show execSpoil i s = _
    rw [execSpoil, ha]
    exact congrArg Host.Outcome.next (if_pos hopen)

/-- A finished site leaves the coordinates that the plan entries hold. -/
theorem planCoordinates_of_siteFinished {s t : State} {i : Site} {c : SiteChannel} {d : Disposition} {cause : Option SpoilCause}
    (h : siteFinished s t i c d cause) (f : Fin 2) (j : Site) : planCoordinates t f j = planCoordinates s f j :=
  planCoordinates_of_ramOutside h.2.2 (recordBytes_miss_planEntries s i f j)

/-- What a fresh index's report does to the lot and the disposition (R9, R12, R13). -/
theorem report_of_fresh {l : LotController} {b : BoundIndex} (hk : b.kind = .fresh) (hf : l.freshBound ≠ 0) (w : Word)
    (x y : Half) :
    (afterReport l b w x y .commit = { l with freshBound := l.freshBound - 1, committed := l.committed + 1 }) ∧
      (∀ cause, afterReport l b w x y (.spoil cause) = { l with freshBound := l.freshBound - 1, spoiled := l.spoiled + 1 }) ∧
      (l.resumeList.length < 64 →
        afterReport l b w x y .hold =
            { l with freshBound := l.freshBound - 1, resumeList := l.resumeList ++ [heldEntry b.index w x y] } ∧
          reportDisposition l b .hold = (.held, none)) ∧
      (64 ≤ l.resumeList.length →
        afterReport l b w x y .hold = { l with freshBound := l.freshBound - 1, spoiled := l.spoiled + 1 } ∧
          reportDisposition l b .hold = (.spoiled, some .resumeListFull)) := by
  refine ⟨by simp [afterReport, afterCommit, hk, hf], fun cause => by simp [afterReport, afterSpoil, spoilFresh, hk, hf],
    fun hroom => ?_, fun hfull => ?_⟩
  · have hroom : listHasRoom l = true := decide_eq_true hroom
    simp [afterReport, afterHold, reportDisposition, holdDisposition, hf, hroom]
  · have hfull : listHasRoom l = false := decide_eq_false (Nat.not_lt.mpr hfull)
    simp [afterReport, afterHold, reportDisposition, holdDisposition, spoilFresh, hf, hfull]

/-- What a listed index's report does to the lot and the disposition (R11, R12, R13). -/
theorem report_of_listed {l : LotController} {b : BoundIndex} {before after : List ResumeEntry} {e : ResumeEntry}
    (hk : b.kind = .resumed) (hlist : l.resumeList = before ++ e :: after) (hindex : e.index = b.index)
    (hother : ∀ x ∈ before ++ after, x.index ≠ b.index) (w : Word) (x y : Half) :
    (afterReport l b w x y .commit = { l with committed := l.committed + 1, resumeList := before ++ after }) ∧
      (∀ cause, afterReport l b w x y (.spoil cause) =
        { l with spoiled := l.spoiled + 1, resumeList := before ++ after }) ∧
      (e.count < 2 →
        afterReport l b w x y .release =
            { l with resumeList := before ++ { e with claimedBy := none, count := e.count + 1 } :: after } ∧
          reportDisposition l b .release = (.held, none)) ∧
      (2 ≤ e.count →
        afterReport l b w x y .release = { l with spoiled := l.spoiled + 1, resumeList := before ++ after } ∧
          reportDisposition l b .release = (.spoiled, some .resumeLimit)) := by
  have hbefore : ∀ x ∈ before, x.index ≠ b.index := fun x hx => hother x (List.mem_append_left _ hx)
  have hentry := entryOf_split hlist hindex hbefore
  have hremove := removeEntry_split hlist hindex hbefore
  have hspoils : releaseSpoils l b.index = decide (2 ≤ e.count) := by simp [releaseSpoils, hentry]
  refine ⟨by simp [afterReport, afterCommit, hk, hentry, hremove],
    fun cause => by simp [afterReport, afterSpoil, spoilListed, hk, hentry, hremove], fun hcount => ?_, fun hcount => ?_⟩
  · have hspoils : releaseSpoils l b.index = false := by rw [hspoils]; simpa using hcount
    simp [afterReport, afterRelease, reportDisposition, releaseDisposition, hspoils, updateEntry_split _ hlist hindex hother]
  · have hspoils : releaseSpoils l b.index = true := by rw [hspoils]; simpa using hcount
    simp [afterReport, afterRelease, reportDisposition, releaseDisposition, spoilListed, hspoils, hentry, hremove]

/-- Settles O47: each report is taken, and what it settles is that of its kind. -/
theorem reportsSettleTheIndex : Obligations.ReportsSettleTheIndex := by
  refine ⟨⟨rfl, rfl, rfl⟩, fun i s c b command report hwf hc hl hb ha hcommand => ?_⟩
  subst hc
  obtain ⟨hframe, hlot, hrest, hfinished⟩ := takeReport_takes hwf hb report
  refine ⟨_, exec_report hl ha hcommand, hframe, takeReport_sitesElse s i report, hrest,
    planCoordinates_of_siteFinished hfinished, fun hk hf l hl => ?_,
    fun hk before e after hlist hindex hother => ?_⟩
  · obtain ⟨hcommit, hspoil, hheld, hfull⟩ := report_of_fresh hk hf (channelOf s i).waferId (channelOf s i).dieX
      (channelOf s i).dieY
    subst hl
    refine ⟨?_, fun cause => ?_, fun hr hroom => ?_, fun hr hfew => ?_⟩
    · rintro rfl
      exact ⟨hlot.trans hcommit, hfinished⟩
    · rintro rfl
      exact ⟨hlot.trans (hspoil cause), hfinished⟩
    · subst hr
      obtain ⟨hl, hd⟩ := hheld hroom
      rw [hd] at hfinished
      exact ⟨hlot.trans hl, hfinished⟩
    · subst hr
      obtain ⟨hl, hd⟩ := hfull hfew
      rw [hd] at hfinished
      exact ⟨hlot.trans hl, hfinished⟩
  · obtain ⟨hcommit, hspoil, hheld, hlimit⟩ := report_of_listed hk hlist hindex hother (channelOf s i).waferId
      (channelOf s i).dieX (channelOf s i).dieY
    refine ⟨?_, fun cause => ?_, fun hr hcount => ?_, fun hr hcount => ?_⟩
    · rintro rfl
      exact ⟨hlot.trans hcommit, hfinished⟩
    · rintro rfl
      exact ⟨hlot.trans (hspoil cause), hfinished⟩
    · subst hr
      obtain ⟨hl, hd⟩ := hheld hcount
      rw [hd] at hfinished
      exact ⟨hlot.trans hl, hfinished⟩
    · subst hr
      obtain ⟨hl, hd⟩ := hlimit hcount
      rw [hd] at hfinished
      exact ⟨hlot.trans hl, hfinished⟩

end Sys2Proof.Machine
end

section
/-!
Interruptions (R109 to R112), the slots of the programming rail (R120 to R127) and the temperature hold (R117, R131).
-/

namespace Sys2Proof.Machine

/-! ## INTERRUPTION -/

/-- The interruption that was sent is taken, and its reason recorded. -/
theorem modifyChannel_twice_interruption (s : State) (i : Site) (reason : InterruptReason) :
    modifyChannel (modifyChannel s i fun c => { c with interruptSent := none }) i
      (fun c => { c with interruption := some reason }) = takeInterruption s i reason := by
  simp [modifyChannel, takeInterruption, setChannel, channelOf]

theorem setActivity_takeInterruption_self {s : State} {i : Site} (reason : InterruptReason) :
    setActivity (takeInterruption s i reason) i (channelOf s i).activity = takeInterruption s i reason := by
  simp [setActivity, modifyChannel, takeInterruption, setChannel, channelOf]

/-- An activity of a channel that has begun to finish, or that gives back what it has outstanding. -/
def finishing (a : Activity) : Prop :=
  a = .resting ∨ a = .finished ∨ (∃ r, a = .reporting r) ∨ a = .withdrawingKey ∨ a = .withdrawingSlot ∨ a = .cutting

/-- An activity whose request has reached no other block. -/
def unsent (a : Activity) : Prop := a = .starting ∨ (∃ task, a = .naming task) ∨ a = .askingKey ∨ a = .askingSlot

/-- What a channel that awaits an answer, a key, a slot or the end of a pulse goes on to await when it is interrupted. -/
def awaits (a b : Activity) : Prop :=
  (a, b) ∈ [(Activity.claimingFresh, Activity.claimingFresh), (.claimingResume, .claimingResume),
    (.awaitingKey, .withdrawingKey), (.awaitingSlot, .withdrawingSlot), (.pulsing, .cutting)]

theorem activity_cases (a : Activity) :
    finishing a ∨ unsent a ∨ (∃ task, a = .exchanging task) ∨ ∃ b, awaits a b := by
  cases a <;> simp [finishing, unsent, awaits]

section

variable {s : State} {i : Site} {reason : InterruptReason} (hs : (channelOf s i).interruptSent = some reason)
include hs

/-- A channel that was interrupted before, or that has begun to finish, takes an interruption with no effect. -/
theorem exec_interruption_of_finishing (h : (channelOf s i).interruption ≠ none ∨ finishing (channelOf s i).activity) :
    exec (.interruption i) s = .next (modifyChannel s i fun c => { c with interruptSent := none }) := by
  show execInterruption i s = _
  unfold execInterruption
  cases hi : (channelOf s i).interruption with
  | some reason' => simp [hs]
  | none =>
    rcases h with h | h | h | ⟨r, h⟩ | h | h | h
    · exact absurd hi h
    all_goals simp [hs, h]

variable (hi : (channelOf s i).interruption = none)
include hi

/-- What has reached no other block is given up, and the channel disposes of its index. -/
theorem exec_interruption_of_unsent (h : unsent (channelOf s i).activity) :
    exec (.interruption i) s = .next (dispose (takeInterruption s i reason) i) := by
  show execInterruption i s = _
  unfold execInterruption
  rcases h with h | ⟨task, h⟩ | h | h
  all_goals simp [hs, hi, h, modifyChannel_twice_interruption]

/-- An exchange is abandoned, and the channel disposes of its index. -/
theorem exec_interruption_of_exchanging {task : LinkTask} (h : (channelOf s i).activity = .exchanging task) :
    exec (.interruption i) s = .next (dispose (abandon (takeInterruption s i reason) i) i) := by
  show execInterruption i s = _
  unfold execInterruption
  simp [hs, hi, h, modifyChannel_twice_interruption]

/-- A claim is awaited; a request for a key or a slot is withdrawn, and a pulse cut. -/
theorem exec_interruption_of_awaiting {a b : Activity} (h : awaits a b) (ha : (channelOf s i).activity = a) :
    exec (.interruption i) s = .next (setActivity (takeInterruption s i reason) i b) := by
  have hsame := setActivity_takeInterruption_self (s := s) (i := i) reason
  show execInterruption i s = _
  unfold execInterruption
  simp only [awaits, List.mem_cons, Prod.mk.injEq, List.not_mem_nil, or_false] at h
  rcases h with ⟨rfl, rfl⟩ | ⟨rfl, rfl⟩ | ⟨rfl, rfl⟩ | ⟨rfl, rfl⟩ | ⟨rfl, rfl⟩
  all_goals
    rw [ha] at hsame
    simp [hs, hi, ha, modifyChannel_twice_interruption, hsame]

end

/-- What an interruption leaves, whatever the channel has outstanding. -/
theorem interruption_frame {s t : State} {i : Site} {reason : InterruptReason}
    (hs : (channelOf s i).interruptSent = some reason) (h : exec (.interruption i) s = .next t) :
    t = { s with ram := t.ram, channels := t.channels, ports := t.ports } ∧ sitesElse s t i ∧ portsElse s t i ∧
      ((∀ task, (channelOf s i).activity ≠ .exchanging task) ∨ (channelOf s i).interruption ≠ none →
        portOf t i = portOf s i) := by
  have hport {u : State} (hu : u.ports = s.ports) (j : Site) : portOf u j = portOf s j := by rw [portOf, portOf, hu]
  by_cases hfinish : (channelOf s i).interruption ≠ none ∨ finishing (channelOf s i).activity
  · obtain rfl := Host.Outcome.next.inj (h.symm.trans (exec_interruption_of_finishing hs hfinish))
    exact ⟨rfl, modifyChannel_sitesElse s i _, fun _ _ => rfl, fun _ => rfl⟩
  obtain ⟨hi, hfinish⟩ := not_or.mp hfinish
  have hi := not_not.mp hi
  have hsites := takeInterruption_sitesElse s i reason
  rcases (activity_cases (channelOf s i).activity).resolve_left hfinish with ha | ⟨task, ha⟩ | ⟨b, ha⟩
  · obtain rfl := Host.Outcome.next.inj (h.symm.trans (exec_interruption_of_unsent hs hi ha))
    exact ⟨by apply State.eq_of_fields <;> simp [takeInterruption], sitesElse_trans hsites (dispose_sitesElse _ i),
      fun j _ => hport (by simp [takeInterruption]) j, fun _ => hport (by simp [takeInterruption]) i⟩
  · obtain rfl := Host.Outcome.next.inj (h.symm.trans (exec_interruption_of_exchanging hs hi ha))
    refine ⟨by apply State.eq_of_fields <;> simp [takeInterruption], sitesElse_trans hsites
      (sitesElse_trans (t := abandon (takeInterruption s i reason) i) (fun _ _ => rfl) (dispose_sitesElse _ i)), fun j hj => ?_,
      fun hno => hno.elim (fun hno => absurd ha (hno task)) fun hno => absurd hi hno⟩
    rw [portOf, (dispose_keeps _ _).2.2.2.2.2.2.2.2.1]
    exact portOf_modifyPort_ne (takeInterruption s i reason) i _ j hj
  · obtain rfl := Host.Outcome.next.inj (h.symm.trans (exec_interruption_of_awaiting hs hi ha rfl))
    exact ⟨rfl, sitesElse_trans hsites (setActivity_sitesElse _ i _), fun _ _ => rfl, fun _ => rfl⟩

/-- Settles O52: each activity gives back what it has outstanding, or awaits it. -/
theorem interruptionGivesBackWhatIsOutstanding : Obligations.InterruptionGivesBackWhatIsOutstanding := by
  intro i s c d reason hwf hc hs hd
  subst hc
  have htaken : channelOf (takeInterruption s i reason) i = d := by rw [takeInterruption, channelOf_modifyChannel, hd]
  obtain ⟨t, hexec⟩ : ∃ t, exec (.interruption i) s = .next t := ⟨_, rfl⟩
  obtain ⟨hframe, hsites, hports, hport⟩ := interruption_frame hs hexec
  refine ⟨t, hexec, hframe, hsites, hports, hport, fun h => ?_, fun hi h => ?_, fun hi h => ?_, fun hi a b h ha => ?_⟩
  · have hfinish : (channelOf s i).interruption ≠ none ∨ finishing (channelOf s i).activity :=
      h.imp_right fun h => h.imp_right fun h => h.imp_right .inl
    obtain rfl := Host.Outcome.next.inj (hexec.symm.trans (exec_interruption_of_finishing hs hfinish))
    exact ⟨rfl, channelOf_modifyChannel s i _⟩
  · obtain rfl := Host.Outcome.next.inj (hexec.symm.trans (exec_interruption_of_unsent hs hi h))
    exact dispose_disposes_from hwf rfl rfl htaken
  · obtain ⟨task, h⟩ := h
    obtain rfl := Host.Outcome.next.inj (hexec.symm.trans (exec_interruption_of_exchanging hs hi h))
    refine ⟨dispose_disposes_from hwf rfl rfl htaken, ?_⟩
    rw [portOf, (dispose_keeps _ _).2.2.2.2.2.2.2.2.1]
    exact portOf_modifyPort (takeInterruption s i reason) i idlePort
  · obtain rfl := Host.Outcome.next.inj (hexec.symm.trans (exec_interruption_of_awaiting hs hi h ha))
    exact ⟨rfl, by rw [channelOf_setActivity, htaken]⟩

/-! ## Slot requests (R120, R123) -/

theorem waitingSize_eq_zero {r : RailController} : waitingSize r = 0 ↔ ∀ j : Site, r.waiting[j] = none := by
  rw [waitingSize, List.countP_eq_zero]
  exact ⟨fun h j => by simpa using h j (mem_allSites j), fun h j _ => by simp [h j]⟩

/-- A site that is granted at once leaves the waiting set as it is, empty. -/
theorem set_none_of_none {r : RailController} (h : ∀ j : Site, r.waiting[j] = none) (i : Site) :
    r.waiting.set i none = r.waiting := by
  refine Vector.ext fun j hj => ?_
  rw [Vector.getElem_set]
  split
  · exact (h ⟨j, hj⟩).symm
  · rfl

/-- Settles O53: a slot is granted at once, or the site waits; a withdrawal takes it out. -/
theorem slotRequestsAreGrantedOrWait : Obligations.SlotRequestsAreGrantedOrWait := by
  intro i s c hc
  subst hc
  refine ⟨fun ha => ?_, fun ha hwf => ?_⟩
  · by_cases hfree : slotFree s.rail ∧ waitingSize s.rail = 0
    · have hexec : exec (.slotRequest i) s = .next (grant s i (channelOf s i).attempt) :=
        congrArg Host.Outcome.next ((if_pos ha).trans (if_pos hfree))
      obtain ⟨hframe, hrail, hchannel, hsites⟩ := grant_grants s i (channelOf s i).attempt
      obtain ⟨hslot, hempty⟩ := hfree
      obtain ⟨hlt, hhold⟩ := slotFree_iff.mp hslot
      have hempty := waitingSize_eq_zero.mp hempty
      refine ⟨_, hexec, hframe, hsites, fun _ _ _ => ⟨?_, ?_⟩, ?_⟩
      · rw [hrail, set_none_of_none hempty i]
      · rw [hchannel]
        simp [countGrant, ha]
      · rintro (h | h | ⟨j, h⟩)
        · omega
        · rw [hhold] at h; cases h
        · exact absurd (hempty j) h
    · have hexec : exec (.slotRequest i) s = .next (setActivity (setRail s
          { s.rail with waiting := s.rail.waiting.set i (some (channelOf s i).attempt) }) i .awaitingSlot) :=
        congrArg Host.Outcome.next ((if_pos ha).trans (if_neg hfree))
      refine ⟨_, hexec, rfl, sitesElse_trans (fun _ _ => rfl) (setActivity_sitesElse (setRail s _) i _), fun hlt hhold hempty => ?_,
        fun _ => ⟨rfl, channelOf_setActivity (setRail s _) i _⟩⟩
      exact absurd ⟨slotFree_iff.mpr ⟨hlt, hhold⟩, waitingSize_eq_zero.mpr hempty⟩ hfree
  · have hexec : exec (.slotWithdrawal i) s =
        .next (dispose (setRail s { s.rail with waiting := s.rail.waiting.set i none }) i) :=
      congrArg Host.Outcome.next (if_pos ha)
    refine ⟨_, hexec, by apply State.eq_of_fields <;> simp, sitesElse_trans (fun _ _ => rfl) (dispose_sitesElse (setRail s _) i),
      dispose_disposes_from hwf rfl rfl rfl⟩

/-! ## The end of a pulse (R125 to R127) -/

/-- Steps 1 to 4 of a pulse end or a cut, field by field. -/
theorem stopPulse_eq (s : State) (i : Site) :
    stopPulse s i = { s with
      channels := s.channels.set i { channelOf s i with dieArmed := false }
      rail := { s.rail with slotsInUse := s.rail.slotsInUse - 1, pulses := s.rail.pulses.set i none }
      mirror :=
        match s.mirror.countdown with
        | none => s.mirror
        | some n =>
          if 1 < n then { s.mirror with countdown := some (n - 1) }
          else { s.mirror with countdown := none, zeroReached := s.mirror.zeroReached + 1 } } := by
  have hcount := countPulse_counts s.mirror
  apply State.eq_of_fields
  case mirror => exact hcount
  all_goals rfl

/-- Settles O55: the slot is freed, and a scan follows. -/
theorem pulseEndAndCutFreeTheSlot : Obligations.PulseEndAndCutFreeTheSlot := by
  intro i s u c hc hu
  subst hc
  have hu : stopPulse s i = u := (stopPulse_eq s i).trans hu.symm
  refine ⟨fun hp => ?_, fun hwf ha v hv => ?_⟩
  · obtain ⟨width, hp⟩ := Option.ne_none_iff_exists'.mp hp
    have hexec : exec (.pulseEnd i) s = .next (scan
        (if (channelOf s i).activity = .pulsing then setActivity (stopPulse s i) i (.naming .verifyPoint) else stopPulse s i)) := by
      show execPulseEnd i s = _
      rw [execPulseEnd, hp]
    rw [hu] at hexec
    refine ⟨fun ha => ?_, fun ha => by rw [hexec, if_neg ha]⟩
    rw [hexec, if_pos ha, ← hu]
    have hset : setActivity (stopPulse s i) i (.naming .verifyPoint) = { stopPulse s i with
        channels := s.channels.set i { channelOf s i with dieArmed := false, activity := .naming .verifyPoint } } := by
      simp [stopPulse, setActivity, modifyChannel, setChannel, channelOf, setRail, setMirror]
    rw [hset]
  · have hexec : exec (.pulseCut i) s = .next (dispose v i) := by
      refine congrArg Host.Outcome.next ((if_pos ha).trans ?_)
      rw [hv, ← hu]
      cases hp : s.rail.pulses[i] with
      | none => rfl
      | some width => rfl
    have hram : v.ram = s.ram := by
      rw [hv, ← hu]
      split
      · rfl
      · simp
    exact ⟨_, hexec, by apply State.eq_of_fields <;> simp, dispose_sitesElse v i,
      dispose_disposes (ramOk_of_eq hwf hram) i⟩

/-! ## The temperature hold (R117, R131) -/

theorem limitReading_eq (output : Int) : limitReading output = max (-4096) (min 4095 output) :=
  clampInt_eq_max_min (by decide) output

theorem tripValue_eq (s : State) : tripValue s = max (-640) (min 2400 (readRam s 0x84).toInt) :=
  clampInt_eq_max_min (by decide) _

/-- A scan neither reads nor changes the phase. -/
theorem scan_inPhase (s : State) (p : RunPhase) : scan { s with phase := p } = { scan s with phase := p } := by
  have site (x : State) (j : Site) : scanSite { x with phase := p } j = { scanSite x j with phase := p } := by
    unfold scanSite
    cases x.rail.waiting[j] with
    | none => rfl
    | some attempt =>
      by_cases hfree : slotFree x.rail = true
      · simp only [hfree, if_true]
        rfl
      · simp only [hfree, Bool.false_eq_true, if_false]
  have sites (l : List Site) (x : State) :
      forSites l scanSite { x with phase := p } = { forSites l scanSite x with phase := p } := by
    induction l generalizing x with
    | nil => rfl
    | cons j l ih =>
      show forSites l scanSite (scanSite _ j) = { forSites l scanSite (scanSite x j) with phase := p }
      rw [site, ih]
  exact sites _ s

/-- The comparison of a reading with the trip value neither reads nor changes the phase. -/
theorem decideHold_inPhase (s : State) (p : RunPhase) : decideHold { s with phase := p } = { decideHold s with phase := p } := by
  have hscan : scan (setRail { s with phase := p } { s.rail with hold := false }) =
    { scan (setRail s { s.rail with hold := false }) with phase := p } := scan_inPhase (setRail s _) p
  have htrip : tripValue { s with phase := p } = tripValue s := rfl
  unfold decideHold
  dsimp only
  rw [htrip, hscan]
  cases s.rail.hold
  all_goals
    simp only [Bool.false_eq_true, if_true, if_false]
    split_ifs
    all_goals rfl

/-- The state in which a reading is latched, and the start-up goes on when the zeroing is complete. -/
def readingTaken (s : State) (output : Int) (whileZeroing : Bool) : State :=
  { s with
    reading := max (-4096) (min 4095 output)
    phase := if s.phase = .startupWaiting ∧ whileZeroing = false then .startupReady else s.phase }

/-- A reading decides the hold but during a soft reset and before the zeroing is complete. -/
theorem exec_temperatureReading (output : Int) (whileZeroing : Bool) (s : State) :
    exec (.temperatureReading ⟨output, whileZeroing⟩) s =
      .next (if s.phase = .softReset ∨ (s.phase = .startupWaiting ∧ whileZeroing = true) then readingTaken s output whileZeroing
        else decideHold (readingTaken s output whileZeroing)) := by
  obtain ⟨x, hx⟩ : ∃ x : State, x = { s with reading := max (-4096) (min 4095 output) } := ⟨_, rfl⟩
  have same (h : ¬ (s.phase = .startupWaiting ∧ whileZeroing = false)) : readingTaken s output whileZeroing = x := by
    rw [readingTaken, if_neg h, hx]
  have goesOn (h : s.phase = .startupWaiting ∧ whileZeroing = false) :
      readingTaken s output whileZeroing = { x with phase := .startupReady } := by
    rw [readingTaken, if_pos h, hx]
  show execTemperatureReading _ s = _
  rw [execTemperatureReading]
  simp only [limitReading_eq, ← hx]
  cases hp : s.phase with
  | softReset => simp [same (by simp [hp])]
  | startupReady => simp [same (by simp [hp])]
  | running => simp [same (by simp [hp])]
  | startupWaiting =>
    cases whileZeroing
    · simp [goesOn ⟨hp, rfl⟩, decideHold_inPhase]
    · simp [same (by simp)]

/-- Settles O56: a reading that decides is compared with the trip value, with the hysteresis of 2 degrees. -/
theorem temperatureReadingDecidesTheHold : Obligations.TemperatureReadingDecidesTheHold := by
  intro output trip whileZeroing decides s u htrip hdecides hu
  have hu : readingTaken s output whileZeroing = u := hu.symm
  have hexec := exec_temperatureReading output whileZeroing s
  have hrail : u.rail = s.rail := by rw [← hu]; rfl
  have hatt : u.attention = s.attention := by rw [← hu]; rfl
  have htrip : tripValue u = trip := by rw [htrip, ← tripValue_eq s, ← hu]; rfl
  simp only [hu, ← hdecides] at hexec
  have hold (hd : decides = true) : exec (.temperatureReading ⟨output, whileZeroing⟩) s = .next
      (if trip ≤ u.reading then
        (if s.rail.hold then u else { u with attention := s.attention ||| 8, rail := { s.rail with hold := true } })
      else if u.reading < trip - 32 then
        (if s.rail.hold then scan { u with rail := { s.rail with hold := false } } else u)
      else u) := by
    rw [hexec, if_neg (by simp [hd]), ← htrip, ← hrail, ← hatt]
    rfl
  refine ⟨fun hd => by rw [hexec, if_pos hd], fun hd hge hclear => ?_, fun hd hge hset => ?_, fun hd hge hlt => ?_,
    fun hd hlt hclear => ?_, fun hd hlt hset => ?_⟩
  · rw [hold hd, if_pos hge, if_neg (by simp [hclear])]
  · rw [hold hd, if_pos hge, if_pos hset]
  · rw [hold hd, if_neg (by omega), if_neg (by omega)]
  · rw [hold hd, if_neg (by omega), if_pos hlt, if_neg (by simp [hclear])]
  · rw [hold hd, if_neg (by omega), if_pos hlt, if_pos hset]

end Sys2Proof.Machine
end

section
/-!
The touchdown: the edges of the CONTACT line (R70 to R85), and the finish of a frame (R80, R83, R84, R19).
-/

namespace Sys2Proof.Machine

/-! ## What follows an answer (R171) -/

/-- The examination that follows an answer is that of a notification, in a part that runs and is idle. -/
theorem reexamine_settles {u : State} (hp : u.phase = .running) (hb : u.requests.busy = false) :
    settlesIn (.next (reexamine u)) u := by
  refine ⟨fun hn => by rw [reexamine_of_none hn], fun hn => ?_⟩
  obtain ⟨x, hx⟩ : ∃ x : State, x = { u with requests := { u.requests with pendingNotify := false } } := ⟨_, rfl⟩
  have hxn : x.requests.pendingNotify = false := by rw [hx]
  have honce : (examineOnce x).requests.pendingNotify = false := (examineOnce_flagsGo x).1.trans hxn
  have hexamine : examine x = examineOnce x := by
    rw [examine, reexamine_of_none honce, ite_self]
  have hleft : reexamine u = examineOnce x := by
    rw [reexamine, if_pos (by simp [hb, hn]), hx]
    rfl
  have hright : notifyUnit x = examine x := notifyUnit_of_idle (by rw [hx]; exact hp) (by rw [hx]; exact hb)
  rw [hleft, ← hexamine, ← hright, hx]
  rfl

/-- A DRAINING lot closes at a touchdown event, and the slot is examined after its answer (R19, R171). -/
theorem closingSteps_settles {u : State} {r : Request} (h : u.ram.wf) (hp : u.phase = .running)
    (hr : u.requests.inProgress = some r) :
    ∃ v, lotClosed u v r.sequence ∧ settlesIn (.next (reexamine (closingSteps u))) v := by
  have hclosed := closingSteps_closes h hr
  obtain ⟨hframe, -, -, -⟩ := hclosed
  exact ⟨_, closingSteps_closes h hr, reexamine_settles (by rw [hframe]; exact hp) (by rw [hframe])⟩

theorem closeIfDraining_of_draining {u : State} (h : u.lot.state = .draining) :
    closeIfDraining u = reexamine (closingSteps u) := if_pos h

theorem closeIfDraining_of_not {u : State} (h : u.lot.state ≠ .draining) : closeIfDraining u = u := if_neg h

/-! ## The CONTACT line -/

theorem allDone_iff {s : State} : allDone s = true ↔ ∀ i, (channelOf s i).state = .done := by
  rw [allDone, List.all_eq_true]
  exact ⟨fun h i => by simpa using h i (mem_allSites i), fun h i _ => by simp [h i]⟩

theorem exec_contactRise {s : State} (h : s.contactLine = false) :
    exec .contactRise s =
      .next (if s.phase = .running then takeRise { s with contactLine := true } else { s with contactLine := true }) := by
  show execContactRise s = _
  simp [execContactRise, h]

theorem exec_contactFall {s : State} (h : s.contactLine = true) :
    exec .contactFall s =
      .next (if s.phase = .running then takeFall { s with contactLine := false } else { s with contactLine := false }) := by
  show execContactFall s = _
  simp [execContactFall, h]

theorem settleDelay_eq (s : State) : settleDelay s = min 10000 (readRam s 0x80).toNat := by
  rw [settleDelay, clampNat_eq_max_min (by decide), Nat.zero_max]

/-- The state with the line and the touchdown controller changed. -/
def withContact (s : State) (line : Bool) (d : TouchdownController) : State := { s with contactLine := line, touchdown := d }

/-- A rise, by the state of the touchdown. -/
theorem takeRise_takes (s : State) :
    takeRise { s with contactLine := true } = withContact s true
      (match s.touchdown.state with
       | .idle =>
         { s.touchdown with
           contactLevel := true
           total := saturatingInc s.touchdown.total
           number := saturatingInc s.touchdown.total
           endReason := none
           abortPending := false
           holdoff := true
           state := .settling
           settleTimer := some (min 10000 (readRam s 0x80).toNat) }
       | .active => { s.touchdown with contactLevel := true, overlapped := saturatingInc s.touchdown.overlapped }
       | .settling => { s.touchdown with contactLevel := true }
       | .waitLift => { s.touchdown with contactLevel := true }) := by
  have hdelay := settleDelay_eq s
  cases hstate : s.touchdown.state with
  | idle => simpa [takeRise, hstate, beginTouchdown, withContact, setTouchdown, settleDelay, readRam] using hdelay
  | active => simp [takeRise, hstate, withContact, setTouchdown]
  | settling => simp [takeRise, hstate, withContact, setTouchdown]
  | waitLift => simp [takeRise, hstate, withContact, setTouchdown]

/-- The touchdown controller after a bounce (R73). -/
def bounced (d : TouchdownController) : TouchdownController :=
  { d with
    contactLevel := false, settleTimer := none, bounced := saturatingInc d.bounced, holdoff := false, state := .idle }

/-- A fall, by the state of the touchdown. -/
theorem takeFall_takes (s : State) :
    (s.touchdown.state = .idle →
      takeFall { s with contactLine := false } = withContact s false { s.touchdown with contactLevel := false }) ∧
    (s.touchdown.state = .waitLift →
      takeFall { s with contactLine := false } =
        withContact s false { s.touchdown with contactLevel := false, state := .idle }) ∧
    (s.touchdown.state = .settling →
      takeFall { s with contactLine := false } = closeIfDraining (withContact s false (bounced s.touchdown))) ∧
    (s.touchdown.state = .active →
      takeFall { s with contactLine := false } = fallInActive (withContact s false { s.touchdown with contactLevel := false })) := by
  refine ⟨fun h => ?_, fun h => ?_, fun h => ?_, fun h => ?_⟩
  all_goals
    simp only [takeFall, h]
    rfl

/-- A fall in ACTIVE is an early lift, or the level alone (R79). -/
theorem fallInActive_falls (s : State) :
    (s.touchdown.endReason ≠ none ∨ (∀ i, (channelOf s i).state = .done) → fallInActive s = s) ∧
      (s.touchdown.endReason = none → (∃ i, (channelOf s i).state ≠ .done) →
        fallInActive s =
          interruptWorking (setTouchdown s { s.touchdown with endReason := some .earlyLift }) .earlyLift) := by
  refine ⟨fun h => ?_, fun hnone hwork => ?_⟩
  · cases hreason : s.touchdown.endReason with
    | some reason => simp [fallInActive, hreason]
    | none =>
      have hall := allDone_iff.mpr (h.resolve_left (fun h => h hreason))
      simp [fallInActive, hreason, hall]
  · have hall : allDone s = false := by
      obtain ⟨i, hi⟩ := hwork
      exact Bool.eq_false_iff.mpr fun h => hi (allDone_iff.mp h i)
    simp [fallInActive, hnone, hall]

/-- Settles O48: each edge in each state of the touchdown. -/
theorem contactEdgesAreTaken : Obligations.ContactEdgesAreTaken := by
  refine ⟨fun x => rfl, fun s u d => ⟨fun hline hu => ?_, fun hline hu => ?_⟩⟩
  · have hu : u = withContact s true d := hu
    rw [exec_contactRise hline, takeRise_takes, hu]
    refine ⟨fun hp hd => ?_, fun hp hstate hd => ?_, fun hp hstate hd => ?_, fun hp hstate hd => ?_⟩
    · rw [if_neg hp, hd]
      rfl
    · rw [if_pos hp, hstate, hd]
    · rw [if_pos hp, hstate, hd]
    · rw [if_pos hp, hd]
      rcases hstate with hstate | hstate
      all_goals rw [hstate]
  · have hu : u = withContact s false d := hu
    obtain ⟨hidle, hwait, hsettling, hactive⟩ := takeFall_takes s
    rw [exec_contactFall hline, hu]
    refine ⟨fun hp hd => ?_, fun hp hstate hd => ?_, fun hp hstate hd => ?_, fun hp hstate hd => ⟨fun hlot => ?_, ?_⟩,
      fun hp hstate hno hd => ?_, fun hp hstate hnone hwork hd => ?_⟩
    · rw [if_neg hp, hd]
      rfl
    · rw [if_pos hp, hidle hstate, hd]
    · rw [if_pos hp, hwait hstate, hd]
    · rw [if_pos hp, hsettling hstate, hd]
      exact congrArg Host.Outcome.next (closeIfDraining_of_not hlot)
    · intro hwf hlot r hr
      have hd : d = bounced s.touchdown := hd
      rw [if_pos hp, hsettling hstate, hd, closeIfDraining_of_draining (u := withContact s false _) hlot]
      exact closingSteps_settles hwf hp hr
    · rw [if_pos hp, hactive hstate, hd]
      exact congrArg Host.Outcome.next ((fallInActive_falls _).1 hno)
    · obtain ⟨x, hx⟩ : ∃ x, x = withContact s false { s.touchdown with contactLevel := false } := ⟨_, rfl⟩
      have hxr : x.touchdown.endReason = none := by rw [hx]; exact hnone
      have hxc (i : Site) : channelOf x i = channelOf s i := by rw [hx]; rfl
      have hfall := (fallInActive_falls x).2 hxr (by simpa [hxc] using hwork)
      rw [if_pos hp, hactive hstate, ← hx, hfall, interruptWorking_eq]
      refine ⟨_, rfl, by rw [hx, hd]; rfl, fun i => ?_⟩
      rw [channelOf_map, channelOf_setTouchdown, hxc]
      rfl

/-! ## SITE_DONE (R80) -/

/-- The words of a finished frame: the end reason, the watermark, the host tag and DONE. -/
theorem writeFinish_writes {s : State} (h : s.ram.wf) (f : Fin 2) {base : Nat} (hbase : base = 0x1000 + 0x1000 * f.val) :
    readRam (writeFinish s f) (base + 0x18) = endReasonCode s.touchdown.endReason ∧
      (∀ k, k < 3 → readRam (writeFinish s f) (base + 0x1C + 4 * k) = (watermark s.lot).getD k 0) ∧
      readRam (writeFinish s f) (base + 4) = s.touchdown.hostTag ∧ readRam (writeFinish s f) base = 3 ∧
      ramOutside s (writeFinish s f) [(base, 8), (base + 0x18, 16)] := by
  have hf := f.isLt
  have hatf : atFrame f = base := hbase.symm
  have hlen : (watermark s.lot).length = 3 := by
    unfold watermark
    split <;> rfl
  obtain ⟨ws, hws⟩ : ∃ ws, ws = endReasonCode s.touchdown.endReason :: watermark s.lot := ⟨_, rfl⟩
  have hwslen : ws.length = 4 := by rw [hws, List.length_cons, hlen]
  have hwrite : writeFinish s f =
      writeRam (writeRam (writeRamWords s (base + 0x18) ws) (base + 4) s.touchdown.hostTag) base frameDone := by
    rw [hws, ← hatf]
    rfl
  have h1 : RamOk (writeRamWords s (base + 0x18) ws) := writeRamWords_ok h _ _
  have h2 : RamOk (writeRam (writeRamWords s (base + 0x18) ws) (base + 4) s.touchdown.hostTag) := writeRam_ok h1 _ _
  have word (k : Nat) (hk : k < 4) : readRam (writeFinish s f) (base + 0x18 + 4 * k) = ws.getD k 0 := by
    rw [hwrite, readRam_writeRam_of_out h2 (by omega), readRam_writeRam_of_out h1 (by omega),
      readRam_writeRamWords_in h (by omega) (by simp only [Config.ramBytes]; omega)]
    exact (List.getD_eq_getElem _ _ (by omega)).symm
  refine ⟨?_, fun k hk => ?_, ?_, ?_, ?_⟩
  · rw [word 0 (by omega), hws]
    rfl
  · have := word (k + 1) (by omega)
    rw [show base + 0x18 + 4 * (k + 1) = base + 0x1C + 4 * k by omega] at this
    rw [this, hws]
    rfl
  · rw [hwrite, readRam_writeRam_of_out h2 (by omega), readRam_writeRam h1 (by simp only [Config.ramBytes]; omega)]
  · rw [hwrite, readRam_writeRam h2 (by simp only [Config.ramBytes]; omega)]
    rfl
  · intro a ha
    have hhead := ha (base, 8) (by simp)
    have htail := ha (base + 0x18, 16) (by simp)
    dsimp only at hhead htail
    rw [hwrite]
    refine (ramOutside_writeRam h2 base frameDone a ?_).trans
      ((ramOutside_writeRam h1 (base + 4) _ a ?_).trans (ramOutside_writeRamWords h _ ws a ?_))
    all_goals
      intro r hr
      rw [List.mem_singleton] at hr
      subst hr
      dsimp only
      omega

/-- The state in which the frame is finished, FRAME_DONE raised and ACTIVE left (R80 steps 1 to 6). -/
def frameFinished (s : State) (i : Site) (f : Fin 2) : State :=
  leaveActive (raise (writeFinish (setActivity s i .resting) f) .frameDone)

/-- What the finish of a frame makes of the state, the frame's words aside. -/
theorem frameFinished_eq (s : State) (i : Site) (f : Fin 2) :
    frameFinished s i f = { s with
      ram := (writeFinish (setActivity s i .resting) f).ram
      channels := (setActivity s i .resting).channels.map takeEntry
      attention := s.attention ||| 1
      touchdown := { s.touchdown with
        holdoff := false
        activeFrame := none
        state := if s.touchdown.contactLevel then .waitLift else .idle } } := by
  rw [frameFinished, leaveActive_eq]
  apply State.eq_of_fields
  case attention => simp [raise, AttentionCause.bit]; rfl
  all_goals simp

/-- The entries that were still to be taken are taken with the last one (notes/assumptions/8.md). -/
theorem channelOf_frameFinished {s : State} {i : Site} (f : Fin 2) (ha : (channelOf s i).activity = .finished) (j : Site) :
    channelOf (frameFinished s i f) j =
      { channelOf s j with
        activity := if (channelOf s j).activity = .finished then .resting else (channelOf s j).activity } := by
  have hmap : channelOf (frameFinished s i f) j = takeEntry (channelOf (setActivity s i .resting) j) := by
    rw [frameFinished_eq]
    simp [channelOf]
  rw [hmap]
  by_cases hj : j = i
  · subst hj
    rw [channelOf_setActivity, takeEntry, if_neg (by simp), if_pos ha]
  · rw [channelOf_setActivity_ne _ _ _ _ hj, takeEntry]
    split
    · rfl
    · rfl

/-- A frame's take fields, end words and records lie beside every plan entry. -/
theorem planCoordinates_of_frameWords {s t : State} {f : Fin 2} {base : Nat} (hbase : base = 0x1000 + 0x1000 * f.val)
    (h : ramOutside s t [(base, 0x40), (base + 0x200, 0x400)]) (g : Fin 2) (j : Site) :
    planCoordinates t g j = planCoordinates s g j := by
  refine planCoordinates_of_ramOutside h fun r hr => ?_
  have hj := j.isLt
  have hf := f.isLt
  have hg := g.isLt
  simp only [List.mem_cons, List.not_mem_nil, or_false] at hr
  simp only [atPlanEntry, atFrame]
  rcases hr with rfl | rfl
  · dsimp only
    omega
  · dsimp only
    omega

/-- The exchange RAM of the finish. -/
theorem frameFinished_writes {s : State} (h : s.ram.wf) (i : Site) (f : Fin 2) {base : Nat}
    (hbase : base = 0x1000 + 0x1000 * f.val) :
    readRam (frameFinished s i f) (base + 0x18) = endReasonCode s.touchdown.endReason ∧
      (∀ k, k < 3 → readRam (frameFinished s i f) (base + 0x1C + 4 * k) = (watermark s.lot).getD k 0) ∧
      readRam (frameFinished s i f) (base + 4) = s.touchdown.hostTag ∧ readRam (frameFinished s i f) base = 3 ∧
      ramOutside s (frameFinished s i f) [(base, 8), (base + 0x18, 16)] := by
  have hram : (frameFinished s i f).ram = (writeFinish (setActivity s i .resting) f).ram := by rw [frameFinished_eq]
  have hwrites := writeFinish_writes (s := setActivity s i .resting) h f hbase
  simp only [readRam, hram] at hwrites ⊢
  obtain ⟨hreason, hmark, htag, hdone, hout⟩ := hwrites
  exact ⟨hreason, hmark, htag, hdone, ramOutside_congr hout rfl hram⟩

/-- The command that takes the last entry into DONE finishes the frame. -/
theorem exec_siteDone_of_last {s : State} {i : Site} {f : Fin 2} (hs : s.touchdown.state = .active)
    (ha : (channelOf s i).activity = .finished) (hf : s.touchdown.activeFrame = some f)
    (hall : ∀ j, (channelOf s j).state = .done) {u : State} (hu : u = frameFinished s i f) :
    exec (.siteDone i) s = .next
      (if u.lot.state = .draining then reexamine (closingSteps (answerAbort u f))
       else if u.touchdown.abortPending then reexamine (answerAbort u f) else answerAbort u f) := by
  have hdone : allDone (setActivity s i .resting) = true := by
    refine allDone_iff.mpr fun j => ?_
    by_cases hj : j = i
    · subst hj
      rw [channelOf_setActivity]
      exact hall j
    · rw [channelOf_setActivity_ne _ _ _ _ hj]
      exact hall j
  have hactive : (setActivity s i .resting).touchdown.activeFrame = some f := hf
  show execSiteDone i s = _
  rw [execSiteDone, if_pos ⟨hs, ha⟩]
  simp only [hactive, hdone, if_true]
  rw [finishFrame, ← frameFinished, ← hu, (answerAbort_keeps u f).2.2.2.1]

/-- Settles O50: an entry alone is taken; the last one finishes the frame. -/
theorem siteDoneFinishesTheFrame : Obligations.SiteDoneFinishesTheFrame := by
  intro i s f base hwf hp hs ha hf hbase
  refine ⟨fun hwork => ?_, fun hall => ?_⟩
  · have hdone : allDone (setActivity s i .resting) = false := by
      obtain ⟨j, hj⟩ := hwork
      refine Bool.eq_false_iff.mpr fun h => hj ?_
      have := allDone_iff.mp h j
      by_cases hij : j = i
      · subst hij
        rwa [channelOf_setActivity] at this
      · rwa [channelOf_setActivity_ne _ _ _ _ hij] at this
    have hactive : (setActivity s i .resting).touchdown.activeFrame = some f := hf
    have hexec : exec (.siteDone i) s = .next (setActivity s i .resting) := by
      show execSiteDone i s = _
      rw [execSiteDone, if_pos ⟨hs, ha⟩]
      simp only [hactive, hdone, Bool.false_eq_true, if_false]
    exact ⟨_, hexec, rfl, setActivity_sitesElse s i _, channelOf_setActivity s i _⟩
  · obtain ⟨u, hu⟩ : ∃ u, u = frameFinished s i f := ⟨_, rfl⟩
    have hexec := exec_siteDone_of_last hs ha hf hall hu
    have heq := frameFinished_eq s i f
    have hchannels := channelOf_frameFinished f ha
    obtain ⟨hreason, hmark, htag, hdone, hout⟩ := frameFinished_writes hwf i f hbase
    rw [← hu] at heq hchannels hreason hmark htag hdone hout
    have huwf : u.ram.wf := by
      rw [heq]
      exact writeFinish_ok (s := setActivity s i .resting) hwf f
    have huphase : u.phase = .running := by rw [heq]; exact hp
    have hureq : u.requests = s.requests := by rw [heq]
    have hulot : u.lot = s.lot := by rw [heq]
    have hutd : u.touchdown.abortPending = s.touchdown.abortPending ∧ u.touchdown.endReason = s.touchdown.endReason ∧
        u.touchdown.number = s.touchdown.number := by rw [heq]; exact ⟨rfl, rfl, rfl⟩
    obtain ⟨hupending, huend, hunumber⟩ := hutd
    rw [hulot, hupending] at hexec
    refine ⟨u, heq.trans ?_, hchannels, ?_, fun l hl => ?_, htag, hdone, hout,
      fun g j => planCoordinates_of_frameWords hbase (ramOutside_mono hout fun a hout r hr => ?_) g j,
      fun hno hlot => ?_, fun hno hlot r hr => ?_, fun hab hlot r hr => ?_⟩
    · rw [heq]
    · exact hreason.trans rfl
    · subst hl
      have h0 := hmark 0 (by omega)
      have h1 := hmark 1 (by omega)
      have h2 := hmark 2 (by omega)
      unfold watermark at h0 h1 h2
      by_cases hlot : s.lot.state = .noLot
      · rw [if_pos hlot] at h0 h1 h2 ⊢
        rw [if_pos hlot, if_pos hlot]
        exact ⟨h0, h1, h2⟩
      · rw [if_neg hlot] at h0 h1 h2 ⊢
        rw [if_neg hlot, if_neg hlot]
        exact ⟨h0, h1, h2⟩
    · have := hout (base, 0x40) (by simp)
      simp only [List.mem_cons, List.not_mem_nil, or_false] at hr
      rcases hr with rfl | rfl
      all_goals
        dsimp only at this ⊢
        omega
    · have hanswer : answerAbort u f = u := by simp [answerAbort, hupending, hno]
      rw [hexec, if_neg hlot, if_neg (by simp [hno]), hanswer]
    · have hanswer : answerAbort u f = u := by simp [answerAbort, hupending, hno]
      rw [hexec, if_pos hlot, hanswer]
      exact closingSteps_settles huwf huphase (by rw [hureq]; exact hr)
    · rw [hexec, if_neg hlot, if_pos hab]
      obtain ⟨code, hcode⟩ : ∃ w, w = endReasonCode s.touchdown.endReason := ⟨_, rfl⟩
      have hur : u.requests.inProgress = some r := by rw [hureq]; exact hr
      obtain ⟨v, hv⟩ : ∃ v, v = answer u .done code [natWord f.val, s.touchdown.number] := ⟨_, rfl⟩
      have hanswered := answer_answers huwf hur .done code [natWord f.val, s.touchdown.number] (by simp)
      have hchanges := answer_changes hur .done code [natWord f.val, s.touchdown.number]
      have houtside := answer_outside huwf .done code [natWord f.val, s.touchdown.number] (by simp)
      rw [← hv] at hanswered hchanges houtside
      have hanswer : answerAbort u f = setTouchdown v { v.touchdown with abortPending := false } := by
        rw [answerAbort, if_pos (by rw [hupending]; exact hab), huend, hunumber, ← hcode, ← hv]
      obtain ⟨x, hx⟩ : ∃ x, x = answerAbort u f := ⟨_, rfl⟩
      rw [← hx]
      rw [hanswer] at hx
      have hxreq : x.requests = v.requests := by rw [hx]; rfl
      have hxans := answered_congr_right hanswered (by rw [hx]; rfl) hxreq
      refine ⟨x, ?_, ?_, ramOutside_congr houtside rfl (by rw [hx]; rfl), reexamine_settles ?_ ?_⟩
      · rw [hx, hchanges, heq]
        apply State.eq_of_fields
        case attention => exact BitVec.or_assoc s.attention 1 2
        all_goals rfl
      · rw [hcode] at hxans
        exact hxans
      · rw [hx, hchanges]
        exact huphase
      · rw [hxans.2.2.2]

end Sys2Proof.Machine
end

section
/-!
The latch moment (R74 to R78, R92): the take of an ARMED frame, and the start of each site, which touches its own channel and
its own record alone.
-/

namespace Sys2Proof.Machine

/-! ## What belongs to one site: its channel and its record -/

/-- The channel of site `i` and its record in frame `f` are as before, and only channels and exchange RAM may have changed. -/
structure SameCell (f : Fin 2) (i : Site) (x y : State) : Prop where
  frame : y = { x with ram := y.ram, channels := y.channels }
  channel : channelOf y i = channelOf x i
  record : ∀ k, k < 64 → readByte y.ram (atRecord f i + k) = readByte x.ram (atRecord f i + k)

theorem SameCell.refl (f : Fin 2) (i : Site) (x : State) : SameCell f i x x := ⟨rfl, rfl, fun _ _ => rfl⟩

theorem SameCell.trans {f : Fin 2} {i : Site} {x y z : State} (h : SameCell f i x y) (g : SameCell f i y z) :
    SameCell f i x z := by
  refine ⟨?_, g.channel.trans h.channel, fun k hk => (g.record k hk).trans (h.record k hk)⟩
  rw [g.frame, h.frame]

/-- A record that stands is one of the active frame and of its own bytes alone. -/
theorem recordWritten_of_sameCell {f : Fin 2} {i : Site} {t t' : State} {c : SiteChannel} {d : Disposition}
    {cause : Option SpoilCause} (hf : t.touchdown.activeFrame = some f) (h : SameCell f i t t')
    (hw : recordWritten t i c d cause) : recordWritten t' i c d cause := by
  intro g r keyed hg hr hk
  have hactive : t'.touchdown.activeFrame = some f := by rw [h.frame]; exact hf
  obtain rfl : f = g := Option.some.inj (hactive.symm.trans hg)
  have hrecord : atRecord f i = r := by simp only [atRecord, atFrame]; omega
  have word {k : Nat} (hk : k + 4 ≤ 64) : readRam t' (r + k) = readRam t (r + k) :=
    readRam_congr fun j hj => by
      rw [← hrecord, Nat.add_assoc]
      exact h.record (k + j) (by omega)
  have head : readRam t' r = readRam t r := word (k := 0) (by omega)
  obtain ⟨h00, h04, h08, h0c, h10, h14, h18, h1c, h20, h24, h28, h2c, hrest⟩ := hw f r keyed hf hr hk
  refine ⟨by rw [head]; exact h00, by rw [word (by omega)]; exact h04, by rw [word (by omega)]; exact h08,
    by rw [word (by omega)]; exact h0c, by rw [word (by omega)]; exact h10, by rw [word (by omega)]; exact h14,
    by rw [word (by omega)]; exact h18, by rw [word (by omega)]; exact h1c, by rw [word (by omega)]; exact h20,
    by rw [word (by omega)]; exact h24, by rw [word (by omega)]; exact h28, by rw [word (by omega)]; exact h2c,
    fun k h1 h2 => ?_⟩
  rw [← hrecord]
  exact (h.record k h2).trans (by rw [hrecord]; exact hrest k h1 h2)

/-! ## The start of one site (R77, R92) -/

/-- The channel with which a site starts: its plan entry, the wafer and its contact. -/
def startedWith (entries : Site → PlanEntry) (x : State) (i : Site) : SiteChannel :=
  startedChannel (channelOf x i).recordCoordinates (entries i) x.touchdown.waferId
    (decide (i.val < fittedCount x) && x.touchdown.latchedContact.getLsbD i.val)

/-- The tests of R77 and R92 in their order, each with its outcome. -/
def startTests (entries : Site → PlanEntry) (late : SiteSet) (x : State) (i : Site) : List (Bool × Outcome) :=
  [(!decide (i.val < fittedCount x), Outcome.notFitted),
    (decide ((entries i).action ≠ 1 ∧ (entries i).action ≠ 2), .skipped),
    (!(startedWith entries x i).contact, .noContact),
    (!late.getLsbD i.val && decide (x.lot.state = .noLot), .noLot)]

/-- The channel of a site that passes the tests: at its IDENT, or before its lot check when it comes late to it. -/
def startedOn (entries : Site → PlanEntry) (late : SiteSet) (x : State) (i : Site) : SiteChannel :=
  if late.getLsbD i.val then { startedWith entries x i with activity := .starting }
  else { withLotValues (startedWith entries x i) x.lot.profile with activity := .naming .ident }

/-- A site ends at once on the first test that fails, and otherwise goes on. -/
theorem startSite_eq (entries : Site → PlanEntry) (late : SiteSet) (x : State) (i : Site) :
    (∀ o, (startTests entries late x i).find? (·.1) = some (true, o) →
      startSite entries late x i = endDie (setChannel x i (startedWith entries x i)) i o .none) ∧
      ((startTests entries late x i).find? (·.1) = none →
        startSite entries late x i = setChannel x i (startedOn entries late x i)) := by
  obtain ⟨y, hy⟩ : ∃ y, y = setChannel x i (startedWith entries x i) := ⟨_, rfl⟩
  have hstart : startSite entries late x i =
      if !decide (i.val < fittedCount x) then endDie y i .notFitted .none
      else if decide ((entries i).action ≠ 1 ∧ (entries i).action ≠ 2) then endDie y i .skipped .none
      else if !(startedWith entries x i).contact then endDie y i .noContact .none
      else if late.getLsbD i.val then setActivity y i .starting
      else lotCheck y i := by
    rw [hy]
    simp only [decide_eq_true_eq]
    rfl
  have hstarting : setActivity y i .starting = setChannel x i { startedWith entries x i with activity := .starting } := by
    rw [hy]
    simp [setActivity, modifyChannel, setChannel, channelOf]
  have hcheck : lotCheck y i = if decide (x.lot.state = .noLot) then endDie y i .noLot .none
      else setChannel x i { withLotValues (startedWith entries x i) x.lot.profile with activity := .naming .ident } := by
    rw [hy]
    simp [lotCheck, modifyChannel, setChannel, channelOf]
  rw [hstart, ← hy, hstarting, hcheck, startTests, startedOn]
  generalize decide (i.val < fittedCount x) = isFitted
  generalize decide ((entries i).action ≠ 1 ∧ (entries i).action ≠ 2) = isSkipped
  generalize late.getLsbD i.val = isLate
  generalize decide (x.lot.state = .noLot) = hasNoLot
  cases isFitted
  case false => simp
  cases isSkipped
  case true => simp
  cases (startedWith entries x i).contact
  case false => simp
  cases isLate
  case true => simp
  cases hasNoLot
  · simp
  · simp

/-- The channel of a site that ends at its start, with the coordinates of the record that it writes (R183). -/
def endedAtStart (f : Fin 2) (c : SiteChannel) (o : Outcome) : SiteChannel :=
  { c with
    outcome := some o, state := .done, activity := .finished
    recordCoordinates := Vector.ofFn fun g => if g = f then some (c.dieX, c.dieY) else c.recordCoordinates[g] }

/-- What the start of site `i` in `x` comes to in `t`: an end at once with its record, or a channel that goes on and a record
that stands as it was. -/
def SiteStarted (f : Fin 2) (entries : Site → PlanEntry) (late : SiteSet) (x t : State) (i : Site) : Prop :=
  (∀ o, (startTests entries late x i).find? (·.1) = some (true, o) →
    channelOf t i = endedAtStart f (startedWith entries x i) o ∧
      recordWritten t i { startedWith entries x i with outcome := some o } .none none) ∧
    ((startTests entries late x i).find? (·.1) = none →
      channelOf t i = startedOn entries late x i ∧
        ∀ k, k < 64 → readByte t.ram (atRecord f i + k) = readByte x.ram (atRecord f i + k))

theorem siteStarted_startSite {f : Fin 2} {entries : Site → PlanEntry} {late : SiteSet} {x : State} {i : Site} (h : x.ram.wf)
    (hf : x.touchdown.activeFrame = some f) : SiteStarted f entries late x (startSite entries late x i) i := by
  obtain ⟨hend, hgo⟩ := startSite_eq entries late x i
  refine ⟨fun o ho => ?_, fun hn => ?_⟩
  · rw [hend o ho]
    have hdied := endDie_ends (s := setChannel x i (startedWith entries x i)) h i o .none
    rw [channelOf_setChannel] at hdied
    obtain ⟨hchannel, hrecord, -⟩ := hdied
    simp only [setChannel_touchdown, hf, Option.some.injEq, eq_comm (a := f)] at hchannel
    exact ⟨hchannel, hrecord⟩
  · rw [hgo hn]
    exact ⟨channelOf_setChannel x i _, fun _ _ => rfl⟩

/-- Two states that agree on site `i` start it alike. -/
theorem SiteStarted.of_sameCell {f : Fin 2} {entries : Site → PlanEntry} {late : SiteSet} {x x' t : State} {i : Site}
    (hx : SameCell f i x x') (h : SiteStarted f entries late x' t i) : SiteStarted f entries late x t i := by
  have hwith : startedWith entries x' i = startedWith entries x i := by
    rw [startedWith, hx.channel, hx.frame]
    rfl
  have htests : startTests entries late x' i = startTests entries late x i := by
    rw [startTests, hwith, hx.frame]
    rfl
  have hon : startedOn entries late x' i = startedOn entries late x i := by
    rw [startedOn, hwith, hx.frame]
    rfl
  unfold SiteStarted at h ⊢
  rw [hwith, htests, hon] at h
  exact ⟨h.1, fun hn => ⟨(h.2 hn).1, fun k hk => ((h.2 hn).2 k hk).trans (hx.record k hk)⟩⟩

/-- What comes after leaves the start of a site as it is, when it leaves the site. -/
theorem SiteStarted.before_sameCell {f : Fin 2} {entries : Site → PlanEntry} {late : SiteSet} {x t t' : State} {i : Site}
    (h : SiteStarted f entries late x t i) (hf : t.touchdown.activeFrame = some f) (ht : SameCell f i t t') :
    SiteStarted f entries late x t' i := by
  refine ⟨fun o ho => ?_, fun hn => ?_⟩
  · obtain ⟨hchannel, hrecord⟩ := h.1 o ho
    exact ⟨ht.channel.trans hchannel, recordWritten_of_sameCell hf ht hrecord⟩
  · obtain ⟨hchannel, hbytes⟩ := h.2 hn
    exact ⟨ht.channel.trans hchannel, fun k hk => (ht.record k hk).trans (hbytes k hk)⟩

/-! ## The start of every site -/

theorem recordBytes_of_active {s : State} {f : Fin 2} (hf : s.touchdown.activeFrame = some f) (i : Site) :
    recordBytes s i = (atRecord f i, 64) := by
  rw [recordBytes, hf]
  exact Prod.ext (by simp only [atRecord, atFrame]; omega) rfl

/-- The start of a site touches its own record alone. -/
theorem startSite_outside {f : Fin 2} {entries : Site → PlanEntry} {late : SiteSet} {x : State} {i : Site} (h : x.ram.wf)
    (hf : x.touchdown.activeFrame = some f) : ramOutside x (startSite entries late x i) [(atRecord f i, 64)] := by
  obtain ⟨hend, hgo⟩ := startSite_eq entries late x i
  have hbytes : recordBytes (setChannel x i (startedWith entries x i)) i = (atRecord f i, 64) := recordBytes_of_active hf i
  cases htests : (startTests entries late x i).find? (·.1) with
  | none =>
    rw [hgo htests]
    exact ramOutside_refl rfl _
  | some p =>
    obtain ⟨failed, o⟩ := p
    obtain rfl : failed = true := List.find?_some htests
    rw [hend o htests]
    have hdied := endDie_ends (s := setChannel x i (startedWith entries x i)) h i o .none
    obtain ⟨-, -, hout⟩ := hdied
    rw [hbytes] at hout
    exact ramOutside_congr hout rfl rfl

theorem startSite_sameCell {f : Fin 2} {entries : Site → PlanEntry} {late : SiteSet} {x : State} {i j : Site} (h : x.ram.wf)
    (hf : x.touchdown.activeFrame = some f) (hj : j ≠ i) : SameCell f j x (startSite entries late x i) := by
  refine ⟨by apply State.eq_of_fields <;> simp, startSite_sitesElse entries late x i j hj, fun k hk => ?_⟩
  refine startSite_outside h hf _ fun r hr => ?_
  rw [List.mem_singleton] at hr
  subst hr
  have : j.val ≠ i.val := fun h => hj (Fin.ext h)
  simp only [atRecord]
  omega

/-- After the loop over some sites, each of them is started from the state before it, and every other is as it was. -/
theorem forSites_startSite {f : Fin 2} {entries : Site → PlanEntry} {late : SiteSet} {l : List Site} (hl : l.Nodup)
    {x : State} (h : x.ram.wf) (hf : x.touchdown.activeFrame = some f) :
    (∀ j ∈ l, SiteStarted f entries late x (forSites l (startSite entries late) x) j) ∧
      ∀ j, j ∉ l → SameCell f j x (forSites l (startSite entries late) x) := by
  induction l generalizing x with
  | nil => exact ⟨fun j hj => by simp at hj, fun j _ => .refl f j x⟩
  | cons i l ih =>
    obtain ⟨hi, hl⟩ := List.nodup_cons.mp hl
    obtain ⟨y, hy⟩ : ∃ y, y = startSite entries late x i := ⟨_, rfl⟩
    have hloop : forSites (i :: l) (startSite entries late) x = forSites l (startSite entries late) y := by rw [hy]; rfl
    have hyf : y.touchdown.activeFrame = some f := by rw [hy]; simpa using hf
    have hywf : y.ram.wf := by rw [hy]; exact startSite_ok h entries late i
    have hyi : SiteStarted f entries late x y i := by rw [hy]; exact siteStarted_startSite h hf
    have hyj (j : Site) (hj : j ≠ i) : SameCell f j x y := by rw [hy]; exact startSite_sameCell h hf hj
    obtain ⟨hin, hout⟩ := ih hl hywf hyf
    rw [hloop]
    refine ⟨fun j hj => ?_, fun j hj => ?_⟩
    · by_cases hji : j = i
      · subst hji
        exact hyi.before_sameCell hyf (hout j hi)
      · exact (hin j ((List.mem_cons.mp hj).resolve_left hji)).of_sameCell (hyj j hji)
    · obtain ⟨hji, hjl⟩ := not_or.mp (fun h => hj (List.mem_cons.mpr h))
      exact (hyj j hji).trans (hout j hjl)

/-- The loop over the sites touches channels and the records of the frame alone. -/
theorem forSites_startSite_outside {f : Fin 2} {entries : Site → PlanEntry} {late : SiteSet} (l : List Site)
    {x : State} (h : x.ram.wf) (hf : x.touchdown.activeFrame = some f) :
    forSites l (startSite entries late) x = { x with
        ram := (forSites l (startSite entries late) x).ram
        channels := (forSites l (startSite entries late) x).channels } ∧
      ramOutside x (forSites l (startSite entries late) x) [(atFrame f + 0x200, 0x400)] := by
  have hinv := forSites_inv (fun y => y.ram.wf ∧ y = { x with ram := y.ram, channels := y.channels } ∧
      ramOutside x y [(atFrame f + 0x200, 0x400)]) (f := startSite entries late) (fun y i hy => ?_) l x
    ⟨h, rfl, ramOutside_refl rfl _⟩
  · exact hinv.2
  · obtain ⟨hwf, hframe, hout⟩ := hy
    have hyf : y.touchdown.activeFrame = some f := by rw [hframe]; exact hf
    refine ⟨startSite_ok hwf entries late i, ?_, ramOutside_trans hout ?_⟩
    · have hsite : startSite entries late y i = { y with
          ram := (startSite entries late y i).ram, channels := (startSite entries late y i).channels } := by
        apply State.eq_of_fields <;> simp
      rw [hsite, hframe]
    · refine ramOutside_mono (startSite_outside hwf hyf) fun a ha r hr => ?_
      have := ha _ (List.mem_singleton_self _)
      rw [List.mem_singleton] at hr
      subst hr
      have hi := i.isLt
      simp only [atRecord] at this ⊢
      omega

/-! ## The latch moment (R74 to R76) -/

/-- The contact sense of the fitted sites. -/
theorem getLsbD_fittedContact (s : State) (sense : SiteSet) (k : Nat) :
    (sense &&& fittedSites s).getLsbD k = (sense.getLsbD k && decide (k ≤ s.straps.population.toNat)) := by
  have hpop := s.straps.population.isLt
  have hfit : (fittedSites s).getLsbD k = decide (k ≤ s.straps.population.toNat) := by
    rw [fittedSites, BitVec.getLsbD_ushiftRight, BitVec.getLsbD_allOnes, fittedCount]
    congr 1
    apply propext
    omega
  rw [BitVec.getLsbD_and, hfit]

/-- The examination at the latch moment leaves the take pointer. -/
theorem notifyUnit_takePointer (s : State) : (notifyUnit s).touchdown.takePointer = s.touchdown.takePointer := by
  have K : KeptByRequests fun t => t.touchdown.takePointer = s.touchdown.takePointer :=
    { blind := fun h hs => by rw [h.touchdown]; exact hs
      move := fun h hs => by cases h <;> simpa using hs }
  exact K.notifyUnit rfl

/-- The words that a take writes (R76). -/
theorem takeFrame_writes {s : State} (h : s.ram.wf) (f : Fin 2) {base : Nat} (hbase : base = 0x1000 + 0x1000 * f.val) :
    readRam (takeFrame s f) base = 2 ∧ readRam (takeFrame s f) (base + 0x0C) = s.touchdown.number ∧
      readRam (takeFrame s f) (base + 0x10) = BitVec.ofInt 32 s.touchdown.latchedTemp ∧
      readRam (takeFrame s f) (base + 0x14) = (if s.lot.state = .noLot then 0 else s.lot.number) ∧
      ramOutside s (takeFrame s f) [(base, 4), (base + 0x0C, 12)] := by
  have hf := f.isLt
  have hatf : atFrame f = base := hbase.symm
  obtain ⟨ws, hws⟩ : ∃ ws, ws = [s.touchdown.number, signedWord s.touchdown.latchedTemp, lotNumberAtTake s.lot] := ⟨_, rfl⟩
  have hlen : ws.length = 3 := by rw [hws]; rfl
  have h1 : RamOk (writeRamWords s (base + 0x0C) ws) := writeRamWords_ok h _ _
  have hram : (takeFrame s f).ram = (writeRam (writeRamWords s (base + 0x0C) ws) base frameActive).ram := by
    rw [hws, ← hatf]
    rfl
  have word (k : Nat) (hk : k < 3) : readRam (takeFrame s f) (base + 0x0C + 4 * k) = ws.getD k 0 := by
    rw [readRam, hram]
    refine (readRam_writeRam_of_out h1 (by omega) frameActive).trans ?_
    rw [readRam_writeRamWords_in h (by omega) (by simp only [Config.ramBytes]; omega)]
    exact (List.getD_eq_getElem _ _ (by omega)).symm
  refine ⟨?_, (word 0 (by omega)).trans (by rw [hws]; rfl), (word 1 (by omega)).trans (by rw [hws]; rfl),
    (word 2 (by omega)).trans (by rw [hws]; rfl), fun a ha => ?_⟩
  · rw [readRam, hram]
    exact readRam_writeRam h1 (by simp only [Config.ramBytes]; omega) frameActive
  · have hhead := ha (base, 4) (by simp)
    have htail := ha (base + 0x0C, 12) (by simp)
    dsimp only at hhead htail
    rw [hram]
    refine (ramOutside_writeRam h1 base frameActive a ?_).trans (ramOutside_writeRamWords h _ ws a ?_)
    all_goals
      intro r hr
      rw [List.mem_singleton] at hr
      subst hr
      dsimp only
      omega

/-- What the take of an ARMED frame makes of the state `v` in which the slot was examined. -/
def frameTaken (v : State) (late : SiteSet) (f : Fin 2) : State :=
  forSites Config.allSites (startSite (readPlanEntry v f) late) (takeFrame v f)

theorem frameTaken_takes {v : State} (h : v.ram.wf) (late : SiteSet) (f : Fin 2) {base : Nat}
    (hbase : base = 0x1000 + 0x1000 * f.val) :
    frameTaken v late f = { v with
        ram := (frameTaken v late f).ram
        channels := (frameTaken v late f).channels
        touchdown := { v.touchdown with
          hostTag := readRam v (base + 4)
          waferId := readRam v (base + 8)
          activeFrame := some f
          takePointer := f + 1
          state := .active } } ∧
      readRam (frameTaken v late f) base = 2 ∧ readRam (frameTaken v late f) (base + 0x0C) = v.touchdown.number ∧
      readRam (frameTaken v late f) (base + 0x10) = BitVec.ofInt 32 v.touchdown.latchedTemp ∧
      readRam (frameTaken v late f) (base + 0x14) = (if v.lot.state = .noLot then 0 else v.lot.number) ∧
      ramOutside v (frameTaken v late f) [(base, 4), (base + 0x0C, 12), (base + 0x200, 0x400)] ∧
      ∀ i, SiteStarted f (readPlanEntry v f) late (takeFrame v f) (frameTaken v late f) i := by
  have hatf : atFrame f = base := hbase.symm
  have htaken : RamOk (takeFrame v f) := takeFrame_ok h f
  have hactive : (takeFrame v f).touchdown.activeFrame = some f := rfl
  obtain ⟨hstate, hnumber, htemp, hlot, hout⟩ := takeFrame_writes h f hbase
  obtain ⟨hframe, hrecords⟩ :=
    forSites_startSite_outside (entries := readPlanEntry v f) (late := late) Config.allSites htaken hactive
  rw [← frameTaken, hatf] at hrecords
  rw [← frameTaken] at hframe
  have word (k : Nat) (hk : k ≤ 0x14) : readRam (frameTaken v late f) (base + k) = readRam (takeFrame v f) (base + k) :=
    readRam_of_ramOutside hrecords fun r hr => by
      rw [List.mem_singleton] at hr
      subst hr
      dsimp only
      omega
  refine ⟨?_, (word 0 (by omega)).trans hstate, (word 0x0C (by omega)).trans hnumber,
    (word 0x10 (by omega)).trans htemp, (word 0x14 (by omega)).trans hlot, ramOutside_trans (ramOutside_mono hout fun a ha r hr => ?_)
      (ramOutside_mono hrecords fun a ha r hr => ?_), fun i =>
      (forSites_startSite allSites_nodup htaken hactive).1 i (mem_allSites i)⟩
  · refine hframe.trans ?_
    rw [← hatf]
    rfl
  · exact ha r (List.mem_append_left [(base + 0x200, 0x400)] hr)
  · exact ha r (List.mem_cons_of_mem _ (List.mem_cons_of_mem _ hr))

/-- The state after the latch: the timer stopped, temperature and contact captured. -/
theorem latch_eq {s u : State} {sense : SiteSet}
    (hu : u = { s with touchdown := { s.touchdown with
      settleTimer := none, latchedTemp := s.reading, latchedContact := u.touchdown.latchedContact } })
    (hcontact : ∀ k, k < 16 →
      u.touchdown.latchedContact.getLsbD k = (sense.getLsbD k && decide (k ≤ s.straps.population.toNat))) :
    latch s sense = u := by
  have hsense : u.touchdown.latchedContact = sense &&& fittedSites s :=
    BitVec.eq_of_getLsbD_eq fun k hk => by rw [hcontact k hk, getLsbD_fittedContact s sense k]
  calc latch s sense
      = { s with touchdown := { s.touchdown with
          settleTimer := none, latchedTemp := s.reading, latchedContact := sense &&& fittedSites s } } := rfl
    _ = u := by rw [← hsense]; exact hu.symm

/-- Settles O49: no plan, or the take of the frame and the start of every site. -/
theorem settleExpiryTakesTheFrame : Obligations.SettleExpiryTakesTheFrame := by
  intro sense late s u f hwf hp hs htimer hf hu hcontact
  have hlatch := latch_eq hu hcontact
  have huwf : u.ram.wf := by rw [← hlatch]; exact hwf
  have hup : u.phase = .running := by rw [← hlatch]; exact hp
  have hupointer : u.touchdown.takePointer = f := by rw [← hlatch, hf]; rfl
  obtain ⟨v, hv⟩ : ∃ v, v = notifyUnit u := ⟨_, rfl⟩
  have hvwf : v.ram.wf := by rw [hv]; exact notifyUnit_ok huwf
  have hvp : v.phase = .running := by rw [hv]; simpa using hup
  have hpointer : v.touchdown.takePointer = f := by rw [hv, notifyUnit_takePointer, hupointer]
  have hexec : exec (.settleExpiry ⟨sense, late⟩) s = .next (considerFrame v late) := by
    have hcond : s.touchdown.state = .settling ∧ s.touchdown.settleTimer.isSome ∧ s.phase = .running :=
      ⟨hs, Option.isSome_iff_ne_none.mpr htimer, hp⟩
    rw [hv, ← hlatch]
    exact congrArg Host.Outcome.next (if_pos hcond)
  refine ⟨v, by rw [hv]; rfl, fun hno w hw => ?_, fun harmed base hbase => ?_⟩
  · have hnoPlan : considerFrame v late = closeIfDraining w := by
      have hframe : ¬ readRam v (atFrame v.touchdown.takePointer) = frameArmed := by rw [hpointer]; exact hno
      rw [considerFrame, if_neg hframe, hw]
      rfl
    rw [hexec, hnoPlan]
    refine ⟨fun hlot => ?_, fun hlot r hr => ?_⟩
    · rw [closeIfDraining_of_not (by rw [hw]; exact hlot)]
    · rw [closeIfDraining_of_draining (by rw [hw]; exact hlot)]
      exact closingSteps_settles (by rw [hw]; exact hvwf) (by rw [hw]; exact hvp) (by rw [hw]; exact hr)
  · have hatf : atFrame f = base := hbase.symm
    have htake : considerFrame v late = frameTaken v late f := by
      have hframe : readRam v (atFrame v.touchdown.takePointer) = frameArmed := by rw [hpointer]; exact harmed
      rw [considerFrame, if_pos hframe, hpointer]
      rfl
    obtain ⟨hframe, hstate, hnumber, htemp, hlotNumber, hout, hsites⟩ := frameTaken_takes hvwf late f hbase
    obtain ⟨t, ht⟩ : ∃ t, t = frameTaken v late f := ⟨_, rfl⟩
    rw [← ht] at hframe hstate hnumber htemp hlotNumber hout hsites
    have hplan (j : Site) : planCoordinates t f j = planCoordinates v f j := by
      refine planCoordinates_of_frameWords hbase (ramOutside_mono hout fun a ha r hr => ?_) f j
      have h1 := ha (base, 0x40) (by simp)
      have h2 := ha (base + 0x200, 0x400) (by simp)
      simp only [List.mem_cons, List.not_mem_nil, or_false] at hr
      rcases hr with rfl | rfl | rfl
      all_goals
        dsimp only at h1 h2 ⊢
        omega
    refine ⟨t, by rw [hexec, htake, ht], hframe, hstate, hnumber, htemp, hlotNumber, hout, fun i => ?_,
      fun i fitted action c hfitted haction hc => ?_⟩
    · rw [hplan]
      obtain ⟨hend, hgo⟩ := hsites i
      cases htests : (startTests (readPlanEntry v f) late (takeFrame v f) i).find? (·.1) with
      | none =>
        rw [(hgo htests).1, startedOn]
        split
        · rfl
        · rfl
      | some p =>
        obtain ⟨failed, o⟩ := p
        obtain rfl : failed = true := List.find?_some htests
        rw [(hend o htests).1]
        rfl
    · have hdieX : (readPlanEntry v f i).dieX = (readRam v (base + 0x44 + 16 * i.val)).extractLsb' 0 16 := by
        rw [show base + 0x44 + 16 * i.val = atPlanEntry f i + 4 by simp only [atPlanEntry]; omega]
        exact setWidth_eq_extractLsb' 16 (readRam v (atPlanEntry f i + 4))
      have hdieY : (readPlanEntry v f i).dieY = (readRam v (base + 0x48 + 16 * i.val)).extractLsb' 0 16 := by
        rw [show base + 0x48 + 16 * i.val = atPlanEntry f i + 8 by simp only [atPlanEntry]; omega]
        exact setWidth_eq_extractLsb' 16 (readRam v (atPlanEntry f i + 8))
      have hact : (readPlanEntry v f i).action = action := by rw [haction, ← hatf]; rfl
      have hfit : decide (i.val < fittedCount (takeFrame v f)) = fitted := by
        rw [hfitted]
        exact decide_eq_decide.mpr Nat.lt_succ_iff
      have hstarted : startedWith (readPlanEntry v f) (takeFrame v f) i = c := by
        rw [startedWith, hfit, startedChannel, hact, hdieX, hdieY, hc, ← hatf]
        rfl
      have htests : startTests (readPlanEntry v f) late (takeFrame v f) i =
          [(!fitted, Outcome.notFitted), (decide (action ≠ 1 ∧ action ≠ 2), .skipped), (!c.contact, .noContact),
            (!late.getLsbD i.val && decide (v.lot.state = .noLot), .noLot)] := by
        rw [startTests, hstarted, hfit, hact]
        rfl
      obtain ⟨hend, hgo⟩ := hsites i
      rw [htests, hstarted] at hend
      rw [htests] at hgo
      refine ⟨fun o ho => hend o ho, fun hfit hact hcon hlate => ?_⟩
      have hpass : (!late.getLsbD i.val && decide (v.lot.state = .noLot)) = false := by
        rcases hlate with h | h
        · rw [h]; rfl
        · rw [decide_eq_false h, Bool.and_false]
      have hother : decide (action ≠ 1 ∧ action ≠ 2) = false := by
        rcases hact with h | h
        · simp [h]
        · simp [h]
      rw [hfit, hother, hcon, hpass] at hgo
      obtain ⟨hchannel, hbytes⟩ := hgo rfl
      refine ⟨?_, fun a ha => ?_⟩
      · rw [hchannel, startedOn, hstarted]
        rfl
      · have h1 := ha (base, 4) (by simp)
        have h2 := ha (base + 0x0C, 12) (by simp)
        have h3 := ha (base + 0x200, 64 * i.val) (by simp)
        have h4 := ha (base + 0x240 + 64 * i.val, 960 - 64 * i.val) (by simp)
        dsimp only at h1 h2 h3 h4
        have hi := i.isLt
        by_cases hrecord : base + 0x200 + 64 * i.val ≤ a ∧ a < base + 0x240 + 64 * i.val
        · have hbyte := hbytes (a - atRecord f i) (by simp only [atRecord]; omega)
          rw [show atRecord f i + (a - atRecord f i) = a by simp only [atRecord]; omega] at hbyte
          refine hbyte.trans ((takeFrame_writes hvwf f hbase).2.2.2.2 a fun r hr => ?_)
          simp only [List.mem_cons, List.not_mem_nil, or_false] at hr
          rcases hr with rfl | rfl
          · exact h1
          · exact h2
        · refine hout a fun r hr => ?_
          simp only [List.mem_cons, List.not_mem_nil, or_false] at hr
          rcases hr with rfl | rfl | rfl
          · exact h1
          · exact h2
          · dsimp only
            omega

end Sys2Proof.Machine
end

section
/-!
The probe link at the port (spec/08): frames and their check, sending and resending, and how a response is judged.
-/

namespace Sys2Proof.Machine

/-! ## The ports of the other sites -/

theorem portsElse_refl (s : State) (i : Site) : portsElse s s i := fun _ _ => rfl

theorem portsElse_trans {s t u : State} {i : Site} (h : portsElse s t i) (g : portsElse t u i) : portsElse s u i :=
  fun j hj => (g j hj).trans (h j hj)

theorem portsElse_of_ports {s t : State} (h : t.ports = s.ports) (i : Site) : portsElse s t i := fun j _ => by
  rw [portOf, portOf, h]

theorem modifyPort_portsElse (s : State) (i : Site) (f : LinkPort → LinkPort) : portsElse s (modifyPort s i f) i :=
  fun j hj => portOf_modifyPort_ne s i f j hj

theorem handOn_portsElse (s : State) (i : Site) (status : Byte) (data : List Byte) :
    portsElse s (handOn s i status data) i :=
  portsElse_trans (modifyPort_portsElse s i idlePort) (portsElse_of_ports (by simp [handOn]) i)

theorem goodResponse_portsElse (s : State) (i : Site) (r : LinkRequest) (status : Byte) (data : List Byte) :
    portsElse s (goodResponse s i r status data) i := by
  unfold goodResponse
  split
  · exact portsElse_trans (modifyPort_portsElse s i _) (failSending_else (countOn s i _) i true).2
  · split
    · dsimp only
      split
      · exact portsElse_trans (modifyPort_portsElse s i _) (sendFrame_portsElse (modifyPort s i _) i _ _)
      · exact portsElse_trans (modifyPort_portsElse s i _) (handOn_portsElse (modifyPort s i _) i status data)
    · exact handOn_portsElse s i status data

theorem judgeResponse_portsElse (s : State) (i : Site) (r : LinkRequest) (bytes : List Byte) :
    portsElse s (judgeResponse s i r bytes) i := by
  unfold judgeResponse testResponse
  dsimp only
  split
  · exact portsElse_refl s i
  · split
    · exact portsElse_refl s i
    · split
      · exact portsElse_trans (modifyPort_portsElse s i _) (failSending_else (countOn s i _) i false).2
      · split
        · split
          · exact portsElse_trans (modifyPort_portsElse s i _) (repeatFrame_portsElse (countOn s i _) i)
          · exact portsElse_trans (modifyPort_portsElse s i _) (linkFailure_else (countOn s i _) i).2
        · exact portsElse_trans (modifyPort_portsElse s i _) (goodResponse_portsElse (countOn s i _) i r _ _)

/-- What a failed sending does is said of the exchange RAM, the lot, the touchdown and the channels, not of the ports. -/
theorem sendingFailed_of_ports {s t : State} {ports : Vector LinkPort 16} {i : Site} {p : LinkPort} {task : LinkTask}
    {refused : Bool} (h : sendingFailed { s with ports := ports } t i p task refused) : sendingFailed s t i p task refused := h

theorem linkFailed_of_ports {s t : State} {ports : Vector LinkPort 16} {i : Site} {p : LinkPort} {task : LinkTask}
    (h : linkFailed { s with ports := ports } t i p task) : linkFailed s t i p task := h

/-! ## Frames (R136, R137) -/

theorem byteSum_toNat (bytes : List Byte) : (byteSum bytes).toNat = (bytes.map BitVec.toNat).sum % 256 := by
  induction bytes with
  | nil => rfl
  | cons b bytes ih =>
    show (b + byteSum bytes).toNat = _
    rw [BitVec.toNat_add, ih, List.map_cons, List.sum_cons, Nat.add_mod_mod]

theorem byteSum_append (xs ys : List Byte) : byteSum (xs ++ ys) = byteSum xs + byteSum ys := by
  induction xs with
  | nil => exact (BitVec.zero_add _).symm
  | cons x xs ih =>
    show x + byteSum (xs ++ ys) = x + byteSum xs + byteSum ys
    rw [ih, BitVec.add_assoc]

theorem byteSum_singleton (b : Byte) : byteSum [b] = b := BitVec.add_zero b

/-- A request frame sums to 0. -/
theorem byteSum_requestFrame (r : LinkRequest) : byteSum (requestFrame r false) = 0 := by
  rw [requestFrame, if_neg (by simp), byteSum_append, byteSum_singleton, checkByte, BitVec.add_right_neg]
  rfl

/-- A test frame's sum is odd. -/
theorem byteSum_testFrame (r : LinkRequest) : byteSum (requestFrame r true) ≠ 0 := by
  rw [requestFrame, if_pos rfl, byteSum_append, byteSum_singleton, checkByte, BitVec.not_neg]
  generalize byteSum (requestBytes r) = sum
  bv_omega

/-! ## Sending, and sending again (R140 to R144) -/

theorem exec_exchangeRequest_of_naming {s : State} {i : Site} {task : LinkTask} (ha : (channelOf s i).activity = .naming task) :
    exec (.exchangeRequest i) s = .next (takeExchange s i) := by
  show execExchangeRequest i s = _
  rw [execExchangeRequest, if_neg (by simp [ha])]

theorem exec_exchangeRequest_of_starting {s : State} {i : Site} (ha : (channelOf s i).activity = .starting) :
    exec (.exchangeRequest i) s = .next (takeExchange (lotCheck s i) i) := by
  show execExchangeRequest i s = _
  rw [execExchangeRequest, if_pos ha]

/-- A channel whose lot check is still to come makes it, and its IDENT is sent when there is a lot (R5, R92, R93). -/
theorem takeExchange_lotCheck {s : State} {i : Site} (hwf : s.ram.wf) (hp : (portOf s i).phase = .idle) :
    (s.lot.state = .noLot →
      portOf (takeExchange (lotCheck s i) i) i = portOf s i ∧
        diedWith s (takeExchange (lotCheck s i) i) i (channelOf s i) .noLot .none) ∧
    (s.lot.state ≠ .noLot →
      (takeExchange (lotCheck s i) i).ram = s.ram ∧
        channelOf (takeExchange (lotCheck s i) i) i =
          { withLotValues (channelOf s i) s.lot.profile with activity := .exchanging .ident } ∧
        frameSent s { portOf s i with exchange := some .ident, retryCount := 0 } (portOf (takeExchange (lotCheck s i) i) i)
          .ident false) := by
  obtain ⟨hdied, hopen⟩ := lotCheck_checks hwf i
  obtain ⟨y, hy⟩ : ∃ y, y = lotCheck s i := ⟨_, rfl⟩
  have hport : portOf y i = portOf s i := by rw [portOf, portOf, hy, (lotCheck_keeps s i).2.2.2.2.2.2.2.2.1]
  have hlot : y.lot = s.lot := by rw [hy]; simp
  rw [← hy] at hdied hopen ⊢
  refine ⟨fun hl => ?_, fun hl => ?_⟩
  · have hfinished := hdied hl
    have hnot : takeExchange y i = y := takeExchange_of_not_naming fun task h => by
      rw [hfinished.1] at h
      cases h
    rw [hnot]
    exact ⟨hport, hfinished⟩
  · obtain ⟨hram, hchannel⟩ := hopen hl
    have hnaming : (channelOf y i).activity = .naming .ident := by rw [hchannel]
    obtain ⟨hsent, hframe⟩ := takeExchange_sends hnaming (by rw [hport]; exact hp)
    refine ⟨(takeExchange_keeps y i).1.trans hram, by rw [hsent, hchannel], ?_⟩
    rw [hport] at hframe
    exact frameSent_congr hframe hram.symm hlot.symm

/-- The resend at the end of the drain interval: a READ with a recorded POINT as a re-point, anything else as itself. -/
theorem resendAfterDrain_eq {s : State} {i : Site} {r : LinkRequest} (h : (portOf s i).exchange = some r) :
    (∀ a, (∃ n l, r = .read n l) → (portOf s i).pointedAddress = some a →
        resendAfterDrain s i = sendFrame s i (.point a) true) ∧
      ((∀ n l, r ≠ .read n l) ∨ (portOf s i).pointedAddress = none → resendAfterDrain s i = sendFrame s i r false) := by
  refine ⟨fun a ⟨n, l, hr⟩ ha => by simp [resendAfterDrain, h, hr, ha], fun hno => ?_⟩
  cases ha : (portOf s i).pointedAddress with
  | none => cases r <;> simp [resendAfterDrain, h, ha]
  | some a =>
    have hno := hno.resolve_right (by simp [ha])
    cases r with
    | read n l => exact absurd rfl (hno n l)
    | _ => simp [resendAfterDrain, h, ha]

/-- Settles O57: frames and their sums, the sending of each task, the timeout and the end of a drain interval. -/
theorem exchangesAreSentAndResent : Obligations.ExchangesAreSentAndResent := by
  refine ⟨byteSum_toNat, fun r => ?_, fun i s c p task hc hp => ?_⟩
  · refine ⟨requestBytes r, checkByte (requestBytes r), ?_, rfl, rfl, byteSum_requestFrame r, byteSum_testFrame r⟩
    cases r with
    | read n l => cases l <;> rfl
    | _ => rfl
  subst hc hp
  refine ⟨fun ha hidle base cursor r hbase hcursor hr => ?_, fun ha hidle hwf => ?_, fun ha hphase hwf => ?_, fun hphase r hr => ?_⟩
  · have hrequest : taskRequest (channelOf s i) task = r := by
      subst hbase hcursor
      simp only [List.mem_cons, Prod.mk.injEq, List.not_mem_nil, or_false] at hr
      rcases hr with ⟨rfl, rfl⟩ | ⟨rfl, rfl⟩ | ⟨rfl, rfl⟩ | ⟨rfl, rfl⟩ | ⟨rfl, rfl⟩ | ⟨rfl, rfl⟩ | ⟨rfl, rfl⟩ | ⟨rfl, rfl⟩ |
        ⟨rfl, rfl⟩ | ⟨rfl, rfl⟩ | ⟨rfl, rfl⟩ | ⟨rfl, rfl⟩ | ⟨rfl, rfl⟩ | ⟨rfl, rfl⟩ | ⟨rfl, rfl⟩
      all_goals rfl
    obtain ⟨hsent, hframe⟩ := takeExchange_sends ha hidle
    obtain ⟨hsites, hports⟩ := takeExchange_else s i
    rw [hrequest] at hframe
    exact ⟨_, exec_exchangeRequest_of_naming ha, by apply State.eq_of_fields <;> simp, hsites, hports, hsent, hframe⟩
  · obtain ⟨hnone, hopen⟩ := takeExchange_lotCheck hwf hidle
    obtain ⟨hsites, hports⟩ := takeExchange_else (lotCheck s i) i
    refine ⟨_, exec_exchangeRequest_of_starting ha, by apply State.eq_of_fields <;> simp,
      sitesElse_trans (lotCheck_sitesElse s i) hsites,
      portsElse_trans (portsElse_of_ports (lotCheck_keeps s i).2.2.2.2.2.2.2.2.1 i) hports, hnone, hopen⟩
  · obtain ⟨y, hy⟩ : ∃ y, y = countOn s i fun c => { c with timeouts := saturatingInc c.timeouts } := ⟨_, rfl⟩
    have hexec : exec (.responseTimeout i) s = .next (failSending y i false) := by
      rw [hy]
      exact congrArg Host.Outcome.next (if_pos hphase)
    obtain ⟨hsites, hports⟩ := failSending_else y i false
    have hfails := failSending_fails (s := y) (by rw [hy]; exact hwf) (by rw [hy]; exact ha) false
    refine ⟨_, hexec, ?_, sitesElse_trans (fun j _ => by rw [hy]; rfl) hsites,
      portsElse_trans (by rw [hy]; exact modifyPort_portsElse s i _) hports, ?_⟩
    · apply State.eq_of_fields <;> simp [hy]
    · rw [hy] at hfails ⊢
      rw [countOn, portOf_modifyPort] at hfails
      exact sendingFailed_of_ports hfails
  · obtain ⟨hread, hself⟩ := resendAfterDrain_eq hr
    have hexec : exec (.drainEnd i) s = .next (resendAfterDrain s i) := congrArg Host.Outcome.next (if_pos hphase)
    by_cases hpoint : (∃ n l, r = .read n l) ∧ ∃ a, (portOf s i).pointedAddress = some a
    · obtain ⟨hr, a, ha⟩ := hpoint
      rw [hread a hr ha] at hexec
      refine ⟨_, hexec, by apply State.eq_of_fields <;> simp, sendFrame_portsElse s i _ _, fun _ a' ha' => ?_, fun hno => ?_⟩
      · obtain rfl := Option.some.inj (ha.symm.trans ha')
        exact sendFrame_sends s i _ _
      · rcases hno with hno | hno
        · obtain ⟨n, l, hr⟩ := hr
          exact absurd hr (hno n l)
        · rw [ha] at hno
          cases hno
    · have hno : (∀ n l, r ≠ .read n l) ∨ (portOf s i).pointedAddress = none := by
        by_cases h : ∃ n l, r = .read n l
        · exact .inr (Option.eq_none_iff_forall_ne_some.mpr fun a ha => hpoint ⟨h, a, ha⟩)
        · exact .inl fun n l hr => h ⟨n, l, hr⟩
      rw [hself hno] at hexec
      exact ⟨_, hexec, by apply State.eq_of_fields <;> simp, sendFrame_portsElse s i _ _,
        fun hr a ha => absurd ⟨hr, a, ha⟩ hpoint, fun _ => sendFrame_sends s i _ _⟩

/-! ## Judging a response (R138, R141, R142, R150) -/

/-- No response is shorter than two bytes. -/
theorem two_le_expectedLength (r : LinkRequest) (status : Byte) : 2 ≤ expectedLength r status := by
  unfold expectedLength
  split
  · cases r
    all_goals
      dsimp only
      omega
  · exact Nat.le_refl 2

theorem exec_responseComplete {s : State} {i : Site} {r : LinkRequest} (bytes : List Byte) (hp : (portOf s i).phase = .listening)
    (hr : currentRequest (portOf s i) = some r) :
    exec (.responseComplete i bytes) s = .next (judgeResponse s i r bytes) := by
  show execResponseComplete i bytes s = _
  rw [execResponseComplete, hp, hr]

/-- The state in which a good response is counted. -/
def goodCounted (s : State) (i : Site) : State := countOn s i fun c => { c with goodResponses := saturatingInc c.goodResponses }

/-- Bytes that are short of their length change nothing; a whole frame is damaged, the answer to a test frame, or good. -/
theorem judgeResponse_judges (s : State) (i : Site) (r : LinkRequest) (bytes : List Byte) {len : Nat}
    (hlen : len = expectedLength r (bytes.headD 0)) :
    (bytes.length < len → judgeResponse s i r bytes = s) ∧
      (len ≤ bytes.length → byteSum (bytes.take len) ≠ 0 →
        judgeResponse s i r bytes =
          failSending (countOn s i fun c => { c with checkErrors := saturatingInc c.checkErrors }) i false) ∧
      (len ≤ bytes.length → byteSum (bytes.take len) = 0 →
        judgeResponse s i r bytes =
          if (portOf s i).testFrame then testResponse (goodCounted s i) i (bytes.headD 0)
          else goodResponse (goodCounted s i) i r (bytes.headD 0) (((bytes.take len).drop 1).dropLast)) := by
  have htwo := two_le_expectedLength r (bytes.headD 0)
  cases bytes with
  | nil =>
    have hshort : ¬ len ≤ ([] : List Byte).length := by simp only [List.length_nil]; omega
    exact ⟨fun _ => rfl, fun h => absurd h hshort, fun h => absurd h hshort⟩
  | cons status rest =>
    rw [List.headD_cons] at hlen
    subst hlen
    refine ⟨fun h => if_pos h, fun h hsum => ?_, fun h hsum => ?_⟩
    · exact (if_neg (Nat.not_lt.mpr h)).trans (if_pos hsum)
    · exact (if_neg (Nat.not_lt.mpr h)).trans (if_neg (not_not.mpr hsum))

/-- A good response that refuses a frame is a failed sending; an OK to the POINT of a re-point leads to the READ; any other
is handed on, an OK to a POINT being recorded (R141, R144). -/
theorem goodResponse_cases (s : State) (i : Site) (r : LinkRequest) (status : Byte) (data : List Byte) :
    (status = 0x0F → goodResponse s i r status data =
        failSending (countOn s i fun c => { c with dieCheckErrors := saturatingInc c.dieCheckErrors }) i true) ∧
      (status = 0 → (portOf s i).onRePoint = true → ∀ x, (portOf s i).exchange = some x →
        goodResponse s i r status data = sendFrame (modifyPort s i fun p => recordPoint p r) i x false) ∧
      (status ≠ 0x0F → (status = 0 → (portOf s i).onRePoint = false) →
        goodResponse s i r status data =
          handOn (if status = 0 then modifyPort s i fun p => recordPoint p r else s) i status data) := by
  refine ⟨fun h => if_pos h, fun h hre x hx => ?_, fun hne hre => ?_⟩
  · subst h
    rw [goodResponse, if_neg (by decide), if_pos rfl, hre, hx]
  · rw [goodResponse, if_neg hne]
    by_cases h : status = 0
    · rw [if_pos h, if_pos h, hre h]
    · rw [if_neg h, if_neg h]

/-- The port of a response that is handed on is idle. -/
theorem portOf_handOn (s : State) (i : Site) (status : Byte) (data : List Byte) :
    portOf (handOn s i status data) i = idlePort (portOf s i) := by
  have hports : (handOn s i status data).ports = (modifyPort s i idlePort).ports := by simp [handOn]
  rw [portOf, hports]
  exact portOf_modifyPort s i idlePort

/-- Settles O58: the length, the sum, the test frame and the status of a response. -/
theorem responsesAreJudgedAtThePort : Obligations.ResponsesAreJudgedAtThePort := by
  refine ⟨fun p => rfl, fun r status => rfl, ?_⟩
  intro i s bytes c p g r task status len hwf hc hp hphase hr ha hstatus hlen hg
  subst hc hp
  have hlen : len = expectedLength r (bytes.headD 0) := by rw [hlen, hstatus]; rfl
  obtain ⟨hshort, hdamaged, hwhole⟩ := judgeResponse_judges s i r bytes hlen
  rw [← hstatus] at hwhole
  obtain ⟨y, hy⟩ : ∃ y, y = goodCounted s i := ⟨_, rfl⟩
  have hyport : portOf y i = g := by
    rw [hy, hg]
    exact portOf_modifyPort s i _
  have hywf : y.ram.wf := by rw [hy]; exact hwf
  have hyact : (channelOf y i).activity = .exchanging task := by rw [hy]; exact ha
  have hyram : y.ram = s.ram := by rw [hy]; rfl
  have hychannels : y.channels = s.channels := by rw [hy]; rfl
  have hylot : y.lot = s.lot := by rw [hy]; rfl
  have hports : y = { s with ports := y.ports } := by rw [hy]; rfl
  have hgr : currentRequest g = some r := by rw [hg]; exact hr
  rw [← hy] at hwhole
  refine ⟨_, exec_responseComplete bytes hphase hr, by apply State.eq_of_fields <;> simp, (judgeResponse_goes s i r bytes).1,
    judgeResponse_portsElse s i r bytes, hshort, fun h hsum => ?_, fun h hsum => ⟨fun htest hst => ?_, fun htest hst => ?_,
      fun htest hst => ?_, fun htest hst hre x a hx hra => ?_, fun htest hst hre => ?_⟩⟩
  · rw [hdamaged h hsum]
    have hfails := failSending_fails (s := countOn s i fun c => { c with checkErrors := saturatingInc c.checkErrors })
      hwf ha false
    rw [countOn, portOf_modifyPort] at hfails
    exact sendingFailed_of_ports hfails
  · rw [hwhole h hsum, if_pos htest, testResponse, if_pos hst]
    have hsends := repeatFrame_sends (s := y) (i := i) (r := r) (by rw [hyport]; exact hgr)
    rw [hyport] at hsends
    refine ⟨(repeatFrame_keeps y i).1.trans hyram, ?_, ?_⟩
    · rw [← hychannels]
      simp
    · rw [hg] at hsends
      rw [hg]
      exact frameSent_congr hsends hyram.symm hylot.symm
  · rw [hwhole h hsum, if_pos htest, testResponse, if_neg hst]
    have hfails := linkFailure_fails hywf hyact
    rw [hyport] at hfails
    rw [hports] at hfails ⊢
    exact linkFailed_of_ports hfails
  · obtain ⟨z, hz⟩ : ∃ z, z = countOn y i fun c => { c with dieCheckErrors := saturatingInc c.dieCheckErrors } := ⟨_, rfl⟩
    have hzport : portOf z i = { g with
        counters := { g.counters with dieCheckErrors := saturatingInc g.counters.dieCheckErrors } } := by
      rw [hz, countOn, portOf_modifyPort, hyport]
    have hzports : z = { s with ports := z.ports } := by rw [hz, hports]; rfl
    have hfails := failSending_fails (s := z) (by rw [hzports]; exact hwf) (by rw [hzports]; exact ha) true
    rw [hwhole h hsum, if_neg (by simp [htest]), (goodResponse_cases y i r status _).1 hst, ← hz]
    rw [hzport] at hfails
    rw [hzports] at hfails ⊢
    exact sendingFailed_of_ports hfails
  · subst hra
    have hyre : (portOf y i).onRePoint = true := by rw [hyport, hg]; exact hre
    have hyx : (portOf y i).exchange = some x := by rw [hyport, hg]; exact hx
    rw [hwhole h hsum, if_neg (by simp [htest]), (goodResponse_cases y i _ status _).2.1 hst hyre x hyx]
    have hsends := sendFrame_sends (modifyPort y i fun p => recordPoint p (.point a)) i x false
    rw [portOf_modifyPort, hyport] at hsends
    exact ⟨by rw [(sendFrame_keeps _ _ _ _).1]; exact hyram, by simp [hychannels, modifyPort],
      frameSent_congr hsends hyram.symm hylot.symm⟩
  · have hyre (h0 : status = 0) : (portOf y i).onRePoint = false := by rw [hyport, hg]; exact hre h0
    rw [hwhole h hsum, if_neg (by simp [htest]), (goodResponse_cases y i r status _).2.2 hst hyre, portOf_handOn]
    by_cases h0 : status = 0
    · rw [if_pos h0, if_pos h0, portOf_modifyPort, hyport, hg]
      cases r
      all_goals rfl
    · rw [if_neg h0, if_neg h0, hyport, hg]
      rfl

end Sys2Proof.Machine
end

section
/-!
The probe link at the channel (R93 to R106, R113, R114): what a response that the port hands on makes of the channel.
-/

namespace Sys2Proof.Machine

/-! ## From the port to the channel (R141, R148) -/

/-- The ports play no part in how a site ends. -/
theorem diedWith_of_ports {s t : State} {ports : Vector LinkPort 16} {i : Site} {c : SiteChannel} {o : Outcome}
    {d : Disposition} (h : diedWith { s with ports := ports } t i c o d) : diedWith s t i c o d := h

/-- A response that the port hands on is taken by the channel, in a state that differs in the port of the site alone. -/
theorem exec_of_handedOn {s : State} {i : Site} {task : LinkTask} {bytes : List Byte} {status : Byte} {data : List Byte}
    (h : handedOn s i task bytes status data) :
    ∃ ports, portsElse s { s with ports := ports } i ∧
      exec (.responseComplete i bytes) s = .next (channelResponse { s with ports := ports } i status data) := by
  obtain ⟨-, hphase, htest, hre, hne, r, check, hr, hbytes, hlen, hsum⟩ := h
  subst hbytes
  have hjudge := (judgeResponse_judges s i r (status :: (data ++ [check])) (by rw [hlen]; rfl)).2.2
    (Nat.le_refl _) (by rw [List.take_length]; exact hsum)
  have hdata : (((status :: (data ++ [check])).take (status :: (data ++ [check])).length).drop 1).dropLast = data := by
    rw [List.take_length, List.drop_one, List.tail_cons, List.dropLast_concat]
  have hgoodRe (h0 : status = 0) : (portOf (goodCounted s i) i).onRePoint = false := by
    rw [goodCounted, countOn, portOf_modifyPort]
    exact hre h0
  rw [hdata, htest, if_neg (by simp), List.headD_cons,
    (goodResponse_cases (goodCounted s i) i r status data).2.2 hne hgoodRe] at hjudge
  have hexec := exec_responseComplete (status :: (data ++ [check])) hphase hr
  rw [hjudge] at hexec
  have hcounted : portsElse s (goodCounted s i) i := modifyPort_portsElse s i _
  obtain ⟨y, hy⟩ : ∃ y, y = if status = 0 then modifyPort (goodCounted s i) i fun p => recordPoint p r else goodCounted s i :=
    ⟨_, rfl⟩
  have hports : portsElse s y i := by
    rw [hy]
    split
    · exact portsElse_trans hcounted (modifyPort_portsElse _ i _)
    · exact hcounted
  have hyeq : y = { s with ports := y.ports } := by
    rw [hy]
    split
    · rfl
    · rfl
  rw [← hy] at hexec
  refine ⟨(modifyPort y i idlePort).ports, portsElse_trans hports (modifyPort_portsElse y i idlePort), ?_⟩
  rw [hexec, handOn]
  have : modifyPort y i idlePort = { s with ports := (modifyPort y i idlePort).ports } := by
    conv_lhs => rw [hyeq]
    rfl
  rw [← this]

/-- A frame of the channel's own: `w` is the state in which the channel takes the response. -/
theorem channelResponse_frame {s w : State} {i : Site} (hw : w = { s with ports := w.ports }) (hports : portsElse s w i)
    (status : Byte) (data : List Byte) :
    channelResponse w i status data = { s with
        ram := (channelResponse w i status data).ram
        channels := (channelResponse w i status data).channels
        ports := (channelResponse w i status data).ports } ∧
      sitesElse s (channelResponse w i status data) i ∧ portsElse s (channelResponse w i status data) i := by
  refine ⟨?_, sitesElse_trans (t := w) (fun j _ => by rw [hw]; rfl) (channelResponse_sitesElse w i status data),
    portsElse_trans hports (portsElse_of_ports (by simp) i)⟩
  obtain ⟨p, hp⟩ : ∃ p, p = w.ports := ⟨_, rfl⟩
  rw [← hp] at hw
  subst hw
  apply State.eq_of_fields <;> simp

section

variable {w : State} {i : Site} {task : LinkTask} {status : Byte} {data : List Byte}

theorem channelResponse_arm (ha : (channelOf w i).activity = .exchanging .arm) :
    channelResponse w i status data = armResponse w i status := by
  simp [channelResponse, ha]

theorem channelResponse_disarm (ha : (channelOf w i).activity = .exchanging .disarm) :
    channelResponse w i status data = sendOwed w i := by
  simp [channelResponse, ha]

theorem channelResponse_else (ha : (channelOf w i).activity = .exchanging task) (harm : task ≠ .arm) (hdisarm : task ≠ .disarm) :
    channelResponse w i status data = if status = 0 then okResponse w i task data else unexpectedStatus w i := by
  cases task with
  | arm => exact absurd rfl harm
  | disarm => exact absurd rfl hdisarm
  | _ => simp [channelResponse, ha]

end

/-- A status that the exchange does not expect (R94, R113). -/
theorem unexpectedStatus_acts {s w : State} {i : Site} (hwf : s.ram.wf) (hw : w = { s with ports := w.ports }) :
    ((channelOf s i).bound = none → diedWith s (unexpectedStatus w i) i (channelOf s i) .wrongDie .none) ∧
      ((channelOf s i).bound ≠ none →
        disposed s (unexpectedStatus w i) i { channelOf s i with interruption := some .link }) := by
  obtain ⟨p, hp⟩ : ∃ p, p = w.ports := ⟨_, rfl⟩
  rw [← hp] at hw
  subst hw
  refine ⟨fun hb => ?_, fun hb => ?_⟩
  · have hcond : (channelOf { s with ports := p } i).bound.isNone = true := Option.isNone_iff_eq_none.mpr hb
    rw [unexpectedStatus, if_pos hcond]
    exact diedWith_of_ports (endDie_ends (s := { s with ports := p }) hwf i .wrongDie .none)
  · have hcond : ¬ (channelOf { s with ports := p } i).bound.isNone = true := fun h => hb (Option.isNone_iff_eq_none.mp h)
    rw [unexpectedStatus, if_neg hcond]
    exact dispose_disposes_from hwf rfl rfl (channelOf_modifyChannel { s with ports := p } i _)

/-! ## The scan (R93 to R97) -/

/-- The number of two data bytes, the low one first (R136). -/
theorem toNat_append_bytes (hi lo : Byte) : (hi ++ lo : Half).toNat = lo.toNat + 256 * hi.toNat := by
  rw [BitVec.toNat_append, Nat.shiftLeft_eq, Nat.mul_comm, ← Nat.two_pow_add_eq_or_of_lt lo.isLt]
  omega

/-- The image that 24 data bytes carry. -/
theorem eq_imageOfWords {data : List Byte} {x : Image} (h : data.length = 24)
    (hx : ∀ p, p < 192 → x.getLsbD p = (data.getD (p / 8) 0).getLsbD (p % 8)) : imageOfWords (halvesOf data) = x :=
  BitVec.eq_of_getLsbD_eq fun p hp => by rw [imageOfWords_halvesOf data h hp, hx p hp]

section

variable {w : State} {i : Site}

/-- The IDENT tests (R93), by the five data bytes. -/
theorem identResponse_tests (hwf : w.ram.wf) (d0 d1 w0 w1 locked : Byte) {words : Nat} (hwords : words = w0.toNat + 256 * w1.toNat) :
    (d1 ++ d0 ≠ (channelOf w i).dieType ∨ words < (channelOf w i).baseWord + 12 ∨ words < (channelOf w i).minWords →
      diedWith w (identResponse w i [d0, d1, w0, w1, locked]) i (channelOf w i) .wrongDie .none) ∧
    (d1 ++ d0 = (channelOf w i).dieType → (channelOf w i).baseWord + 12 ≤ words → (channelOf w i).minWords ≤ words →
      ((channelOf w i).action ≠ 2 → locked ≠ 0 →
        diedWith w (identResponse w i [d0, d1, w0, w1, locked]) i (channelOf w i) .dieRefused .none) ∧
      ((channelOf w i).action = 2 ∨ locked = 0 →
        (identResponse w i [d0, d1, w0, w1, locked]).ram = w.ram ∧
          channelOf (identResponse w i [d0, d1, w0, w1, locked]) i =
            { channelOf w i with
              state := .scan
              activity := .naming (if (channelOf w i).action = 2 then .onlyPoint else .blankPoint) })) := by
  have hresponse : identResponse w i [d0, d1, w0, w1, locked] =
      if d1 ++ d0 ≠ (channelOf w i).dieType ∨ words < (channelOf w i).baseWord + 12 ∨ words < (channelOf w i).minWords then
        endDie w i .wrongDie .none
      else if (channelOf w i).action ≠ 2 ∧ locked ≠ 0 then endDie w i .dieRefused .none
      else
        modifyChannel w i fun c =>
          { c with state := .scan, activity := .naming (if c.action = 2 then .onlyPoint else .blankPoint) } := by
    rw [hwords, ← toNat_append_bytes]
    rfl
  rw [hresponse]
  refine ⟨fun h => ?_, fun htype hbase hmin => ?_⟩
  · rw [if_pos h]
    exact endDie_ends hwf i .wrongDie .none
  · have hpass : ¬ (d1 ++ d0 ≠ (channelOf w i).dieType ∨ words < (channelOf w i).baseWord + 12 ∨
        words < (channelOf w i).minWords) := by
      rintro (h | h | h)
      · exact h htype
      · omega
      · omega
    rw [if_neg hpass]
    refine ⟨fun hact hlocked => ?_, fun h => ?_⟩
    · rw [if_pos ⟨hact, hlocked⟩]
      exact endDie_ends hwf i .dieRefused .none
    · rw [if_neg (fun hx => h.elim hx.1 hx.2)]
      exact ⟨rfl, channelOf_modifyChannel w i _⟩

/-- The READ_ONLY readback (R95). -/
theorem onlyReadback_ends (hwf : w.ram.wf) (x : Image) :
    diedWith w (onlyReadback w i x) i
      { channelOf w i with figures := { (channelOf w i).figures with
        blows := blownCount x
        readbackBinding := if validBinding x then some (readbackIndex x, readbackTag x) else none
        imageLocked := some (isLocked x) } } .readDone .read := by
  obtain ⟨y, hy⟩ : ∃ y, y = modifyChannel w i fun c =>
      { c with figures := { c.figures with
        blows := blownCount x
        readbackBinding := if validBinding x then some (readbackIndex x, readbackTag x) else none
        imageLocked := some (isLocked x) } } := ⟨_, rfl⟩
  have hends := endDie_ends (s := y) (by rw [hy]; exact hwf) i .readDone .read
  rw [hy, channelOf_modifyChannel] at hends
  exact siteFinished_congr hends rfl rfl

/-- The end of a die whose index is not listed, or whose binding is not of the lot (R97). -/
theorem notListed_ends {w : State} (hwf : w.ram.wf) {i : Site} {c : SiteChannel} (hc : channelOf w i = c) :
    diedWith w (notListed w i) i
      { c with figures := { c.figures with
        readbackBinding :=
          if validBinding c.readback then some (readbackIndex c.readback, readbackTag c.readback) else none } }
      (if validBinding c.readback = true ∧ isLocked c.readback = true then .lockedDie else .notBlank) .none := by
  subst hc
  obtain ⟨y, hy⟩ : ∃ y, y = modifyChannel w i fun c =>
      { c with figures := { c.figures with
        readbackBinding := if validBinding (channelOf w i).readback then
          some (readbackIndex (channelOf w i).readback, readbackTag (channelOf w i).readback) else none } } := ⟨_, rfl⟩
  have hlisted : notListed w i = endDie y i
      (if validBinding (channelOf w i).readback = true ∧ isLocked (channelOf w i).readback = true then .lockedDie
       else .notBlank) .none := by
    rw [hy]
    simp only [notListed, Bool.and_eq_true]
  have hends := endDie_ends (s := y) (by rw [hy]; exact hwf) i
    (if validBinding (channelOf w i).readback = true ∧ isLocked (channelOf w i).readback = true then .lockedDie
     else .notBlank) .none
  rw [← hlisted, hy, channelOf_modifyChannel] at hends
  exact siteFinished_congr hends rfl rfl

/-- The evaluation up to the resume claim (R97). -/
theorem evalReadback_evaluates (hwf : w.ram.wf) (x : Image) :
    (validBinding x = true → readbackTag x = lotTag w.lot →
      (evalReadback w i x).ram = w.ram ∧
        channelOf (evalReadback w i x) i = { channelOf w i with readback := x, activity := .claimingResume }) ∧
    (validBinding x = false ∨ readbackTag x ≠ lotTag w.lot →
      diedWith w (evalReadback w i x) i
        { channelOf w i with
          readback := x
          figures := { (channelOf w i).figures with
            readbackBinding := if validBinding x then some (readbackIndex x, readbackTag x) else none } }
        (if validBinding x = true ∧ isLocked x = true then .lockedDie else .notBlank) .none) := by
  obtain ⟨y, hy⟩ : ∃ y, y = modifyChannel w i fun c => { c with readback := x } := ⟨_, rfl⟩
  have hyc : channelOf y i = { channelOf w i with readback := x } := by rw [hy, channelOf_modifyChannel]
  have heval : evalReadback w i x =
      if validBinding x ∧ readbackTag x = lotTag w.lot then setActivity y i .claimingResume else notListed y i := by
    rw [hy]
    rfl
  rw [heval]
  refine ⟨fun hv ht => ?_, fun h => ?_⟩
  · rw [if_pos ⟨hv, ht⟩, channelOf_setActivity, hyc]
    exact ⟨by rw [hy]; rfl, rfl⟩
  · have hno : ¬ (validBinding x = true ∧ readbackTag x = lotTag w.lot) := fun hx =>
      h.elim (fun h => by rw [h] at hx; exact absurd hx.1 (by decide)) fun h => h hx.2
    rw [if_neg hno]
    have hends := notListed_ends (w := y) (by rw [hy]; exact hwf) hyc
    rw [hy] at hends ⊢
    exact siteFinished_congr hends rfl rfl

end

/-- Settles O59: an unexpected status, the READ that follows a POINT, the IDENT tests, and the readbacks of the scan. -/
theorem scanResponsesAreActedOn : Obligations.ScanResponsesAreActedOn := by
  intro i s bytes c task status data hwf hc hhanded
  subst hc
  obtain ⟨ports, hports, hexec⟩ := exec_of_handedOn hhanded
  obtain ⟨ha, -⟩ := hhanded
  obtain ⟨w, hw⟩ : ∃ w, w = { s with ports := ports } := ⟨_, rfl⟩
  rw [← hw] at hports hexec
  have hwports : w = { s with ports := w.ports } := by rw [hw]
  have hwc : channelOf w i = channelOf s i := by rw [hw]; rfl
  have hwa : (channelOf w i).activity = .exchanging task := by rw [hwc]; exact ha
  have hwwf : w.ram.wf := by rw [hw]; exact hwf
  have hwram : w.ram = s.ram := by rw [hw]
  have hwlot : lotTag w.lot = s.lot.number.extractLsb' 0 8 := by
    rw [hw]
    exact setWidth_eq_extractLsb' 8 s.lot.number
  obtain ⟨hframe, hsites, hpe⟩ := channelResponse_frame hwports hports status data
  have died {t : State} {c : SiteChannel} {o : Outcome} {d : Disposition} (h : diedWith w t i c o d) : diedWith s t i c o d := by
    rw [hw] at h
    exact diedWith_of_ports h
  have ok (hst : status = 0) (harm : task ≠ .arm) (hdisarm : task ≠ .disarm) :
      channelResponse w i status data = okResponse w i task data := by
    rw [channelResponse_else hwa harm hdisarm, if_pos hst]
  refine ⟨_, hexec, hframe, hsites, hpe, fun harm hdisarm hst => ?_, fun hst after hafter => ?_,
    fun htask hst d0 d1 w0 w1 locked words hdata hwords => ?_, fun hst hlen x binding hx hbinding => ?_⟩
  · rw [channelResponse_else hwa harm hdisarm, if_neg hst]
    exact unexpectedStatus_acts hwf hwports
  · have hread : readAfterPoint task = some after ∧ task ≠ .arm ∧ task ≠ .disarm := by
      simp only [List.mem_cons, Prod.mk.injEq, List.not_mem_nil, or_false] at hafter
      rcases hafter with ⟨rfl, rfl⟩ | ⟨rfl, rfl⟩ | ⟨rfl, rfl⟩ | ⟨rfl, rfl⟩ | ⟨rfl, rfl⟩ | ⟨rfl, rfl⟩
      all_goals exact ⟨rfl, by decide, by decide⟩
    obtain ⟨hread, harm, hdisarm⟩ := hread
    have hok : okResponse w i task data = setActivity w i (.naming after) := by simp [okResponse, hread]
    rw [ok hst harm hdisarm, hok, channelOf_setActivity, hwc]
    exact ⟨hwram, rfl⟩
  · subst htask hdata
    have hresponse : channelResponse w i status [d0, d1, w0, w1, locked] = identResponse w i [d0, d1, w0, w1, locked] :=
      ok hst (by decide) (by decide)
    have htests := identResponse_tests (i := i) hwwf d0 d1 w0 w1 locked hwords
    rw [hwc, hwram] at htests
    obtain ⟨hwrong, hright⟩ := htests
    rw [hresponse]
    exact ⟨fun h => died (hwrong h), fun h1 h2 h3 h4 h5 => died ((hright h1 h2 h3).1 h4 h5), fun h1 h2 h3 => (hright h1 h2 h3).2⟩
  · have himage := eq_imageOfWords hlen hx
    subst hbinding
    refine ⟨fun htask => ?_, fun htask => ?_, fun htask hv ht => ?_, fun htask h => ?_⟩
    all_goals subst htask
    · have hok : okResponse w i .onlyRead data = onlyReadback w i x := by rw [← himage]; rfl
      have hends := onlyReadback_ends (i := i) hwwf x
      rw [hwc] at hends
      rw [ok hst (by decide) (by decide), hok]
      exact died hends
    · have hok : okResponse w i .blankRead data = blankReadback w i x := by rw [← himage]; rfl
      rw [ok hst (by decide) (by decide), hok, blankReadback, channelOf_setActivity, hwc]
      exact ⟨hwram, by simp [isBlank]⟩
    · have hok : okResponse w i .evalRead data = evalReadback w i x := by rw [← himage]; rfl
      have heval := (evalReadback_evaluates (i := i) hwwf x).1 hv (ht.trans hwlot.symm)
      rw [hwc, hwram] at heval
      rw [ok hst (by decide) (by decide), hok]
      exact heval
    · have hok : okResponse w i .evalRead data = evalReadback w i x := by rw [← himage]; rfl
      have heval := (evalReadback_evaluates (i := i) hwwf x).2 (by rw [hwlot]; exact h)
      rw [hwc] at heval
      rw [ok hst (by decide) (by decide), hok]
      exact died heval

/-! ## The burn and the final check (R100 to R106, R114) -/

/-- A channel that waits for nothing else spoils its index with the failing position. -/
theorem spoilAt_reports_of_ports {s w : State} {i : Site} (hw : w = { s with ports := w.ports }) (o : Outcome)
    (cause : SpoilCause) (p : Option Nat) :
    reported s (spoilAt w i o cause p) i
      { channelOf s i with figures := { (channelOf s i).figures with failingPosition := p } } o (.spoil cause) := by
  obtain ⟨hram, hchannel⟩ := spoilAt_reports w i o cause p
  have hwc : channelOf w i = channelOf s i := by rw [hw]; rfl
  rw [hwc] at hchannel
  exact ⟨hram.trans (by rw [hw]), hchannel⟩

/-- The status of an ARM (R101). -/
theorem armResponse_acts {s w : State} {i : Site} (hwf : s.ram.wf) (hw : w = { s with ports := w.ports }) (status : Byte) :
    (status = 1 → (armResponse w i status).ram = s.ram ∧
        channelOf (armResponse w i status) i = { channelOf s i with dieArmed := true, activity := .askingSlot }) ∧
      (status = 2 ∨ status = 3 →
        reported s (armResponse w i status) i
          { channelOf s i with figures := { (channelOf s i).figures with failingPosition := none } } .dieRefused
          (.spoil .dieRefused)) ∧
      (status ≠ 1 → status ≠ 2 → status ≠ 3 →
        disposed s (armResponse w i status) i { channelOf s i with interruption := some .link }) := by
  have hwc : channelOf w i = channelOf s i := by rw [hw]; rfl
  have hwram : w.ram = s.ram := by rw [hw]
  have hwtd : w.touchdown = s.touchdown := by rw [hw]
  refine ⟨fun h => ?_, fun h => ?_, fun h1 h2 h3 => ?_⟩
  · rw [armResponse, if_pos h, channelOf_modifyChannel, hwc]
    exact ⟨hwram, rfl⟩
  · have hne : status ≠ 1 := by rcases h with rfl | rfl <;> decide
    rw [armResponse, if_neg hne, if_pos h]
    exact spoilAt_reports_of_ports hw _ _ _
  · rw [armResponse, if_neg h1, if_neg (fun h => h.elim h2 h3), interruptByLink]
    exact dispose_disposes_from hwf hwram (by rw [modifyChannel_touchdown, hwtd]) (by rw [channelOf_modifyChannel, hwc])

/-- The three results of a verify read (R103, R104). -/
theorem verifyReadback_acts {s w : State} {i : Site} (hw : w = { s with ports := w.ports }) {x : Image} {p : Nat}
    {rest : List Nat} (hx : (channelOf s i).target = some x) (hrest : (channelOf s i).remaining = p :: rest) {word : Half}
    {v : VerifyResult} (hv : v = verifyTest x p rest word) :
    (∀ q, v = .unexpectedBlow q →
        reported s (verifyReadback w i word) i
          { channelOf s i with figures := { (channelOf s i).figures with failingPosition := some q } } .overblown
          (.spoil .overblown)) ∧
      (v = .notBlown → (channelOf s i).attempt < (channelOf s i).maxAttempts →
        (verifyReadback w i word).ram = s.ram ∧
          channelOf (verifyReadback w i word) i =
            { channelOf s i with attempt := (channelOf s i).attempt + 1, activity := .naming .arm }) ∧
      (v = .notBlown → (channelOf s i).maxAttempts ≤ (channelOf s i).attempt →
        reported s (verifyReadback w i word) i
          { channelOf s i with figures := { (channelOf s i).figures with failingPosition := some p } } .burnFail
          (.spoil .burnFail)) ∧
      (v = .verified →
        (verifyReadback w i word).ram = s.ram ∧
          channelOf (verifyReadback w i word) i =
            atNextPosition { channelOf s i with
              remaining := rest
              figures := { (channelOf s i).figures with blows := (channelOf s i).figures.blows + 1 } }) := by
  have hwc : channelOf w i = channelOf s i := by rw [hw]; rfl
  have hwram : w.ram = s.ram := by rw [hw]
  subst hv
  refine ⟨fun q hq => ?_, fun hq hlt => ?_, fun hq hge => ?_, fun hq => ?_⟩
  · have hread : verifyReadback w i word = spoilAt w i .overblown .overblown (some q) := by
      simp [verifyReadback, hwc, hrest, hx, hq]
    rw [hread]
    exact spoilAt_reports_of_ports hw _ _ _
  · have hread : verifyReadback w i word =
        modifyChannel w i fun c => { c with attempt := c.attempt + 1, activity := .naming .arm } := by
      simp [verifyReadback, hwc, hrest, hx, hq, notBlown, hlt]
    rw [hread, channelOf_modifyChannel, hwc]
    exact ⟨hwram, rfl⟩
  · have hread : verifyReadback w i word = spoilAt w i .burnFail .burnFail (some p) := by
      simp [verifyReadback, hwc, hrest, hx, hq, notBlown, Nat.not_lt.mpr hge]
    rw [hread]
    exact spoilAt_reports_of_ports hw _ _ _
  · have hread : verifyReadback w i word = nextPosition (modifyChannel w i fun c =>
        { c with remaining := rest, figures := { c.figures with blows := c.figures.blows + 1 } }) i := by
      simp [verifyReadback, hwc, hrest, hx, hq]
    rw [hread, nextPosition_goes, channelOf_modifyChannel, hwc]
    exact ⟨by simp [hwram], rfl⟩

/-- The outcome of a passed final check (R106), by the kind of the index. -/
theorem passOutcome_eq (c : SiteChannel) :
    passOutcome c = if c.bound.map (·.kind) = some .resumed then .resumed else .provisioned := by
  unfold passOutcome
  cases c.bound with
  | none => rfl
  | some b =>
    obtain ⟨n, kind⟩ := b
    cases kind
    · rfl
    · rfl

/-- Settles O60: ARM, the verify reads, the final check and DISARM. -/
theorem burnResponsesAreActedOn : Obligations.BurnResponsesAreActedOn := by
  intro i s bytes c task status data hwf hc hhanded
  subst hc
  obtain ⟨ports, hports, hexec⟩ := exec_of_handedOn hhanded
  obtain ⟨ha, -⟩ := hhanded
  obtain ⟨w, hw⟩ : ∃ w, w = { s with ports := ports } := ⟨_, rfl⟩
  rw [← hw] at hports hexec
  have hwports : w = { s with ports := w.ports } := by rw [hw]
  have hwc : channelOf w i = channelOf s i := by rw [hw]; rfl
  have hwa : (channelOf w i).activity = .exchanging task := by rw [hwc]; exact ha
  have hwwf : w.ram.wf := by rw [hw]; exact hwf
  have hwram : w.ram = s.ram := by rw [hw]
  have hwframe : w.touchdown.activeFrame = s.touchdown.activeFrame := by rw [hw]
  obtain ⟨hframe, hsites, hpe⟩ := channelResponse_frame hwports hports status data
  have ok (hst : status = 0) (harm : task ≠ .arm) (hdisarm : task ≠ .disarm) :
      channelResponse w i status data = okResponse w i task data := by
    rw [channelResponse_else hwa harm hdisarm, if_pos hst]
  have arm (htask : task = .arm) : channelResponse w i status data = armResponse w i status :=
    channelResponse_arm (htask ▸ hwa)
  obtain ⟨harmed, hrefused, hunexpected⟩ := armResponse_acts (i := i) hwf hwports status
  refine ⟨_, hexec, hframe, hsites, hpe, fun htask hst => ?_, fun htask hst => ?_, fun htask h1 h2 h3 => ?_, fun htask => ?_,
    fun htask hst lo hi x p rest v hdata hx hrest hv => ?_, fun hst hlen x y hx hy => ?_⟩
  · rw [arm htask]
    exact harmed hst
  · rw [arm htask]
    exact hrefused hst
  · rw [arm htask]
    exact hunexpected h1 h2 h3
  · rw [channelResponse_disarm (htask ▸ hwa)]
    have hsends := sendOwed_sends hwwf i
    rw [hwc] at hsends
    exact owedSent_congr hsends hwram.symm hwframe.symm
  · subst htask hdata
    have hok : okResponse w i .verifyRead [lo, hi] = verifyReadback w i (hi ++ lo) := rfl
    rw [ok hst (by decide) (by decide), hok]
    exact verifyReadback_acts hwports hx hrest hv
  · have himage := eq_imageOfWords hlen hy
    have htarget : (channelOf w i).target.getD 0 = x := by rw [hwc, hx]; rfl
    refine ⟨fun p hp => ?_, fun htask hpass => ?_, fun htask hpass => ?_⟩
    · rcases hp with ⟨htask, hp⟩ | ⟨htask, hp⟩
      · subst htask
        have hok : okResponse w i .lowRead data = spoilAt w i .verifyFail .verifyFail (some p) := by
          show lowReadback w i (imageOfWords (halvesOf data)) = _
          rw [himage, lowReadback, htarget, hp]
        rw [ok hst (by decide) (by decide), hok]
        exact spoilAt_reports_of_ports hwports _ _ _
      · subst htask
        have hok : okResponse w i .highRead data = spoilAt w i .verifyFail .verifyFail (some p) := by
          show highReadback w i (imageOfWords (halvesOf data)) = _
          rw [himage, highReadback, htarget, hp]
        rw [ok hst (by decide) (by decide), hok]
        exact spoilAt_reports_of_ports hwports _ _ _
    · subst htask
      have hok : okResponse w i .lowRead data = setActivity w i (.naming .highPoint) := by
        show lowReadback w i (imageOfWords (halvesOf data)) = _
        rw [himage, lowReadback, htarget, hpass]
      rw [ok hst (by decide) (by decide), hok, channelOf_setActivity, hwc]
      exact ⟨hwram, rfl⟩
    · subst htask
      have hok : okResponse w i .highRead data = reportOutcome w i (passOutcome (channelOf w i)) .commit := by
        show highReadback w i (imageOfWords (halvesOf data)) = _
        rw [himage, highReadback, htarget, hpass]
      rw [ok hst (by decide) (by decide), hok, hwc, passOutcome_eq]
      obtain ⟨hram, hchannel⟩ := reportOutcome_reports w i
        (if (channelOf s i).bound.map (·.kind) = some .resumed then .resumed else .provisioned) .commit
      rw [hwc] at hchannel
      exact ⟨hram.trans hwram, hchannel⟩

end Sys2Proof.Machine
end

section
/-!
What a soft reset makes of an open lot (R22): the claims and reports in flight are taken in the order of `takingOrder`, each as by
its own command, and after the listed indices every fresh index that a site holds is spoiled.
-/

namespace Sys2Proof.Machine

/-! ## What the lot controller makes of what a site has in flight -/

section

variable {s : State} {l : LotController} {i : Site}

theorem lotTaken_of_none (h : takingCommand i (channelOf s i).activity = none) : lotTaken s l i = l := by
  simp [lotTaken, h]

theorem lotTaken_of_command {c : Instr} {t : State} (h : takingCommand i (channelOf s i).activity = some c)
    (he : exec c { s with lot := l } = .next t) : lotTaken s l i = t.lot := by
  simp [lotTaken, h, he]

theorem lotTaken_of_claimingFresh (ha : (channelOf s i).activity = .claimingFresh) (hl : l.state ≠ .noLot) :
    lotTaken s l i = afterFreshClaim l := by
  have hcommand : takingCommand i (channelOf s i).activity = some (.freshClaim i) := by rw [ha]; rfl
  have refused {o : Outcome}
      (h : (freshAnswer l, o) ∈ [(FreshAnswer.noIndex, Outcome.noIndex), (.lotClosing, .lotClosing)]) :
      lotTaken s l i = afterFreshClaim l := by
    rw [lotTaken_of_command hcommand (exec_freshClaim_of_refused (s := { s with lot := l }) ha hl h),
      claimAnswered_lot (by simp), afterFreshClaim_of_refused fun n hn => by simp [hn] at h]
  cases h : freshAnswer l with
  | noIndex => exact refused (o := .noIndex) (by simp [h])
  | lotClosing => exact refused (o := .lotClosing) (by simp [h])
  | granted n =>
    obtain ⟨rfl, -⟩ := afterFreshClaim_of_granted h
    rw [lotTaken_of_command hcommand (exec_freshClaim_of_granted (s := { s with lot := l }) ha hl h), claimAnswered_lot rfl]
    rfl

theorem lotTaken_of_claimingResume (ha : (channelOf s i).activity = .claimingResume) (hl : l.state ≠ .noLot) :
    lotTaken s l i = afterResumeClaim l (readbackIndex (channelOf s i).readback) (channelOf s i).waferId
      (channelOf s i).dieX (channelOf s i).dieY i := by
  have hcommand : takingCommand i (channelOf s i).activity = some (.resumeClaim i) := by rw [ha]; rfl
  obtain ⟨c, hc⟩ : ∃ c, c = channelOf s i := ⟨_, rfl⟩
  have hanswer : resumeAnswerTo l c = resumeAnswer l (readbackIndex c.readback) c.waferId c.dieX c.dieY := rfl
  rw [hc] at hanswer
  cases h : resumeAnswerTo l (channelOf s i) with
  | notListed =>
    rw [lotTaken_of_command hcommand (exec_resumeClaim_of_notListed (s := { s with lot := l }) ha hl h),
      claimAnswered_lot (by simp)]
    simp [afterResumeClaim, ← hanswer, h]
  | mismatch =>
    rw [lotTaken_of_command hcommand (exec_resumeClaim_of_mismatch (s := { s with lot := l }) ha hl h),
      claimAnswered_lot (by simp)]
    simp [afterResumeClaim, ← hanswer, h]
  | granted =>
    rw [lotTaken_of_command hcommand (exec_resumeClaim_of_granted (s := { s with lot := l }) ha hl h), claimAnswered_lot rfl]
    simp only [afterResumeClaim, ← hanswer, h]
    rfl

theorem lotTaken_of_reporting {r : Report} (ha : (channelOf s i).activity = .reporting r) (hl : l.state ≠ .noLot) :
    lotTaken s l i = (takeReport { s with lot := l } i r).lot := by
  cases r with
  | commit =>
    exact lotTaken_of_command (by rw [ha]; rfl) (exec_report (s := { s with lot := l }) hl ha (.inl (by simp)))
  | spoil cause =>
    exact lotTaken_of_command (by rw [ha]; rfl) (exec_report (s := { s with lot := l }) hl ha (.inr ⟨cause, rfl, rfl⟩))
  | hold =>
    exact lotTaken_of_command (by rw [ha]; rfl) (exec_report (s := { s with lot := l }) hl ha (.inl (by simp)))
  | release =>
    exact lotTaken_of_command (by rw [ha]; rfl) (exec_report (s := { s with lot := l }) hl ha (.inl (by simp)))

end

theorem takeReport_of_unbound {s : State} {i : Site} {r : Report} (h : (channelOf s i).bound = none) :
    takeReport s i r = s := by simp [takeReport, h]

theorem takeReport_lot_of_bound {s : State} {i : Site} {r : Report} {b : BoundIndex} (h : (channelOf s i).bound = some b) :
    (takeReport s i r).lot =
      afterReport s.lot b (channelOf s i).waferId (channelOf s i).dieX (channelOf s i).dieY r := by
  simp [takeReport, h]

/-- The fresh index that site `i` of `s` holds once the lot controller `l` has taken what the site has in flight. -/
def heldAfter (s : State) (l : LotController) (i : Site) : Option Nat :=
  match (channelOf s i).activity with
  | .claimingFresh => if (lotTaken s l i).nextIndex = l.nextIndex then none else some l.nextIndex
  | .reporting _ => none
  | _ => freshIndex (channelOf s i)

theorem freshHeld_eq (s : State) (order : List Site) (i : Site) :
    freshHeld s order i = heldAfter s (lotAfterTaking s ((takingOrder order).takeWhile (· ≠ i))) i := by
  unfold freshHeld heldAfter
  cases (channelOf s i).activity <;> rfl

/-! ## What the soft reset makes of it -/

/-- A channel with nothing in flight is put at rest. -/
theorem takeInFlight_of_none {s : State} {i : Site} (h : takingCommand i (channelOf s i).activity = none) :
    takeInFlight s i = setActivity s i .resting := by
  cases ha : (channelOf s i).activity with
  | claimingFresh => rw [ha] at h; cases h
  | claimingResume => rw [ha] at h; cases h
  | reporting r => rw [ha] at h; cases r <;> cases h
  | _ => simp [takeInFlight, ha]

theorem takeInFlight_of_resting {s : State} {i : Site} (h : (channelOf s i).activity = .resting) : takeInFlight s i = s := by
  rw [takeInFlight_of_none (by rw [h]; rfl)]
  exact modifyChannel_self (by rw [← h])

theorem takeInFlight_rests (s : State) (i : Site) : (channelOf (takeInFlight s i) i).activity = .resting := by
  cases ha : (channelOf s i).activity with
  | claimingFresh =>
    cases hn : freshAnswer s.lot <;> simp [takeInFlight, ha, hn]
  | claimingResume => simp [takeInFlight, ha]
  | reporting r => cases hb : (channelOf s i).bound <;> simp [takeInFlight, ha, hb]
  | _ => simp [takeInFlight, ha]

theorem heldAfter_of_none {s : State} {l : LotController} {i : Site}
    (h : takingCommand i (channelOf s i).activity = none) : heldAfter s l i = freshIndex (channelOf s i) := by
  cases ha : (channelOf s i).activity with
  | claimingFresh => rw [ha] at h; cases h
  | reporting r => rw [ha] at h; cases r <;> cases h
  | _ => simp [heldAfter, ha]

/-- What is in flight is taken as by its own command, and leaves the site with the fresh index of `heldAfter`. -/
theorem takeInFlight_takes {s x : State} {i : Site} (hc : channelOf x i = channelOf s i) (hl : x.lot.state ≠ .noLot)
    (hsuits : claimSuits (channelOf s i)) :
    (takeInFlight x i).lot = lotTaken s x.lot i ∧ freshIndices (takeInFlight x i) i = heldAfter s x.lot i := by
  obtain ⟨hnone, -⟩ := hsuits
  by_cases hfree : takingCommand i (channelOf s i).activity = none
  · rw [takeInFlight_of_none (by rw [hc]; exact hfree), lotTaken_of_none hfree, heldAfter_of_none hfree]
    exact ⟨rfl, freshIndex_congr (by rw [channelOf_setActivity, hc])⟩
  cases ha : (channelOf s i).activity with
  | claimingFresh =>
    have hb : freshIndex (channelOf s i) = none := freshIndex_of_unbound (hnone (.inl ha))
    have hheld : heldAfter s x.lot i =
        if (lotTaken s x.lot i).nextIndex = x.lot.nextIndex then none else some x.lot.nextIndex := by
      simp only [heldAfter, ha]
    rw [hheld, lotTaken_of_claimingFresh ha hl]
    by_cases hgranted : ∃ n, freshAnswer x.lot = .granted n
    · obtain ⟨n, hn⟩ := hgranted
      obtain ⟨rfl, hlot⟩ := afterFreshClaim_of_granted hn
      simp [takeInFlight, hc, ha, hn, freshIndices, hlot, freshIndex, modifyChannel]
    · have hrefused (n : Nat) : freshAnswer x.lot ≠ .granted n := fun hn => hgranted ⟨n, hn⟩
      rw [afterFreshClaim_of_refused hrefused, if_pos rfl]
      have hkept : (takeInFlight x i).lot = x.lot ∧ (channelOf (takeInFlight x i) i).bound = (channelOf s i).bound := by
        cases hn : freshAnswer x.lot with
        | granted n => exact absurd hn (hrefused n)
        | _ => simp [takeInFlight, hc, ha, hn, afterFreshClaim]
      exact ⟨hkept.1, (freshIndex_congr hkept.2).trans hb⟩
  | claimingResume =>
    have hheld : heldAfter s x.lot i = freshIndex (channelOf s i) := by simp [heldAfter, ha]
    rw [lotTaken_of_claimingResume ha hl, hheld]
    constructor
    · simp [takeInFlight, hc, ha]
    · exact freshIndex_congr (by simp [takeInFlight, hc, ha])
  | reporting r =>
    have hheld : heldAfter s x.lot i = none := by simp [heldAfter, ha]
    rw [lotTaken_of_reporting ha hl, hheld]
    cases hb : (channelOf s i).bound with
    | none =>
      have hreport : takeReport { s with lot := x.lot } i r = { s with lot := x.lot } := takeReport_of_unbound hb
      rw [hreport]
      exact ⟨by simp [takeInFlight, hc, ha, hb], freshIndex_of_unbound (by simp [takeInFlight, hc, ha, hb])⟩
    | some b =>
      rw [takeReport_lot_of_bound (s := { s with lot := x.lot }) hb]
      refine ⟨?_, freshIndex_of_unbound (by simp [takeInFlight, hc, ha, hb])⟩
      show _ = afterReport x.lot b (channelOf s i).waferId (channelOf s i).dieX (channelOf s i).dieY r
      simp [takeInFlight, hc, ha, hb]
  | _ => exact absurd (by rw [ha]; rfl) hfree

/-! ## The sites one after another -/

theorem takeInFlight_moves (s : State) (i : Site) : LotMove s.lot (takeInFlight s i).lot := by
  cases ha : (channelOf s i).activity with
  | claimingFresh =>
    have hlot : (takeInFlight s i).lot = afterFreshClaim s.lot := by
      cases hn : freshAnswer s.lot <;> simp [takeInFlight, ha, hn, modifyChannel]
    rw [hlot]
    exact afterFreshClaim_moves s.lot
  | claimingResume =>
    have hlot : (takeInFlight s i).lot = afterResumeClaim s.lot (readbackIndex (channelOf s i).readback)
        (channelOf s i).waferId (channelOf s i).dieX (channelOf s i).dieY i := by simp [takeInFlight, ha]
    rw [hlot, afterResumeClaim]
    split
    · exact .updates s.lot _ _
    · exact .same s.lot
  | reporting r =>
    cases hb : (channelOf s i).bound with
    | none =>
      have hlot : (takeInFlight s i).lot = s.lot := by simp [takeInFlight, ha, hb]
      rw [hlot]
      exact .same s.lot
    | some b =>
      have hlot : (takeInFlight s i).lot =
          afterReport s.lot b (channelOf s i).waferId (channelOf s i).dieX (channelOf s i).dieY r := by
        simp [takeInFlight, ha, hb, modifyChannel]
      rw [hlot]
      exact afterReport_moves s.lot b _ _ _ r
  | _ =>
    have hlot : (takeInFlight s i).lot = s.lot := by simp [takeInFlight, ha]
    rw [hlot]
    exact .same s.lot

/-- A loop over sites, each step of which changes its own channel only, leaves the channels of the other sites. -/
theorem channelOf_forSites_of_notMem {f : State → Site → State} (hf : ∀ s i, sitesElse s (f s i) i) {l : List Site} {j : Site}
    (hj : j ∉ l) (s : State) : channelOf (forSites l f s) j = channelOf s j := by
  induction l generalizing s with
  | nil => rfl
  | cons i l ih =>
    obtain ⟨hne, hj⟩ := not_or.mp (List.mem_cons.not.mp hj)
    exact (ih hj (f s i)).trans (hf s i j hne)

/-- A site at rest has nothing in flight. -/
theorem forSites_takeInFlight_filter {x : State} {i : Site} (h : (channelOf x i).activity = .resting) (l : List Site) :
    forSites l takeInFlight x = forSites (l.filter fun j => !j == i) takeInFlight x := by
  induction l generalizing x with
  | nil => rfl
  | cons j l ih =>
    by_cases hj : j = i
    · subst hj
      rw [List.filter_cons_of_neg (by simp), ← ih h]
      show forSites l takeInFlight (takeInFlight x j) = _
      rw [takeInFlight_of_resting h]
    · rw [List.filter_cons_of_pos (by simpa using hj)]
      exact ih (by rw [takeInFlight_sitesElse x j i fun e => hj e.symm]; exact h)

/-- What is in flight is taken at the first place of a site; its later places find nothing. -/
theorem forSites_takeInFlight_eraseDups (l : List Site) (x : State) :
    forSites l takeInFlight x = forSites l.eraseDups takeInFlight x := by
  induction hn : l.length using Nat.strong_induction_on generalizing l x with
  | _ n ih =>
    cases l with
    | nil => rfl
    | cons i l =>
      have hshort : (l.filter fun j => !j == i).length < n := by
        rw [← hn, List.length_cons]
        exact Nat.lt_succ_of_le (List.length_filter_le _ l)
      rw [List.eraseDups_cons]
      show forSites l takeInFlight (takeInFlight x i) = forSites (l.filter _).eraseDups takeInFlight (takeInFlight x i)
      rw [forSites_takeInFlight_filter (takeInFlight_rests x i), ih _ hshort _ _ rfl]

/-- What a loop over distinct sites takes, and the fresh index with which it leaves each of them. -/
theorem forSites_takeInFlight {s x : State} {l : List Site} (hl : l.Nodup) (hsuits : ∀ i, claimSuits (channelOf s i))
    (hc : ∀ i ∈ l, channelOf x i = channelOf s i) (hopen : x.lot.state ≠ .noLot) :
    (forSites l takeInFlight x).lot = l.foldl (lotTaken s) x.lot ∧
      ∀ j ∈ l, freshIndices (forSites l takeInFlight x) j =
        heldAfter s ((l.takeWhile (· ≠ j)).foldl (lotTaken s) x.lot) j := by
  induction l generalizing x with
  | nil => exact ⟨rfl, by simp⟩
  | cons i l ih =>
    obtain ⟨hi, hl⟩ := List.nodup_cons.mp hl
    obtain ⟨hlot, hheld⟩ := takeInFlight_takes (hc i (List.mem_cons_self ..)) hopen (hsuits i)
    obtain ⟨hrest, hfresh⟩ := ih (x := takeInFlight x i) hl
      (fun j hj => (takeInFlight_sitesElse x i j fun e => hi (e ▸ hj)).trans (hc j (List.mem_cons_of_mem i hj)))
      (by rw [(takeInFlight_moves x i).state]; exact hopen)
    rw [hlot] at hrest hfresh
    refine ⟨hrest, fun j hj => ?_⟩
    by_cases hji : j = i
    · subst hji
      have hkept : channelOf (forSites l takeInFlight (takeInFlight x j)) j = channelOf (takeInFlight x j) j :=
        channelOf_forSites_of_notMem takeInFlight_sitesElse hi _
      rw [List.takeWhile_cons_of_neg (by simp)]
      exact (congrArg freshIndex hkept).trans hheld
    · rw [List.takeWhile_cons_of_pos (by simpa using fun e => hji e.symm)]
      exact hfresh j ((List.mem_cons.mp hj).resolve_left hji)

theorem nodup_eraseDups (l : List Site) : l.eraseDups.Nodup := by
  induction hn : l.length using Nat.strong_induction_on generalizing l with
  | _ n ih =>
    cases l with
    | nil => simp
    | cons i l =>
      have hshort : (l.filter fun j => !j == i).length < n := by
        rw [← hn, List.length_cons]
        exact Nat.lt_succ_of_le (List.length_filter_le _ l)
      rw [List.eraseDups_cons, List.nodup_cons]
      exact ⟨by simp, ih _ hshort _ rfl⟩

theorem mem_takingOrder (order : List Site) (i : Site) : i ∈ takingOrder order :=
  List.mem_eraseDups.mpr (List.mem_append_right order (mem_allSites i))

/-- The claims and reports in flight, as `lotAfterTaking` and `freshHeld` say. -/
theorem forSites_takeInFlight_order {s x : State} (order : List Site) (hsuits : ∀ i, claimSuits (channelOf s i))
    (hc : x.channels = s.channels) (hl : x.lot = s.lot) (hopen : s.lot.state ≠ .noLot) :
    (forSites (order ++ Config.allSites) takeInFlight x).lot = lotAfterTaking s (takingOrder order) ∧
      freshIndices (forSites (order ++ Config.allSites) takeInFlight x) = freshHeld s order := by
  have hch (i : Site) : channelOf x i = channelOf s i := by rw [channelOf, hc]; rfl
  obtain ⟨hlot, hfresh⟩ := forSites_takeInFlight (nodup_eraseDups _) hsuits (fun i _ => hch i) (hl ▸ hopen)
  rw [hl] at hlot hfresh
  rw [forSites_takeInFlight_eraseDups]
  refine ⟨hlot, funext fun i => ?_⟩
  rw [freshHeld_eq]
  exact hfresh i (mem_takingOrder order i)

/-! ## The fresh indices given up -/

theorem giveUpFresh_of_none {s : State} {i : Site} (h : freshIndices s i = none) : giveUpFresh s i = s := by
  cases hb : (channelOf s i).bound with
  | none => simp [giveUpFresh, hb]
  | some b =>
    cases hk : b.kind with
    | fresh => simp [freshIndices, freshIndex_of_bound hb, hk] at h
    | resumed => simp [giveUpFresh, hb, hk]

theorem giveUpFresh_of_some {s : State} {i : Site} {n : Nat} (h : freshIndices s i = some n) :
    (giveUpFresh s i).lot = spoilFreshByReset s.lot n := by
  cases hb : (channelOf s i).bound with
  | none => rw [freshIndices, freshIndex_of_unbound hb] at h; cases h
  | some b =>
    rw [freshIndices, freshIndex_of_bound hb] at h
    obtain ⟨hk, hn⟩ := Option.ite_none_right_eq_some.mp h
    cases hn
    simp [giveUpFresh, hb, hk, modifyChannel]

/-- A loop over distinct sites spoils every fresh index they hold, in their order (R22). -/
theorem forSites_giveUpFresh {l : List Site} (hl : l.Nodup) {y : State}
    (hb : (l.filterMap (freshIndices y)).length ≤ y.lot.freshBound) :
    (forSites l giveUpFresh y).lot =
      { y.lot with
        spoiled := y.lot.spoiled + (l.filterMap (freshIndices y)).length
        freshBound := y.lot.freshBound - (l.filterMap (freshIndices y)).length
        closureList := y.lot.closureList ++ l.filterMap (freshIndices y) } := by
  induction l generalizing y with
  | nil => simp [forSites]
  | cons i l ih =>
    obtain ⟨hi, hl⟩ := List.nodup_cons.mp hl
    have hrest : l.filterMap (freshIndices (giveUpFresh y i)) = l.filterMap (freshIndices y) :=
      List.filterMap_congr fun j hj => congrArg freshIndex (giveUpFresh_sitesElse y i j fun e => hi (e ▸ hj))
    have ih' := ih (y := giveUpFresh y i) hl
    rw [hrest] at ih'
    show (forSites l giveUpFresh (giveUpFresh y i)).lot = _
    cases hfresh : freshIndices y i with
    | none =>
      rw [List.filterMap_cons_none hfresh] at hb ⊢
      rw [giveUpFresh_of_none hfresh] at ih' ⊢
      exact ih' hb
    | some n =>
      have hlot := giveUpFresh_of_some hfresh
      rw [List.filterMap_cons_some hfresh, List.length_cons] at hb
      rw [spoilFreshByReset, if_neg (by omega), spoilFresh, if_neg (by omega)] at hlot
      rw [hlot] at ih'
      rw [ih' (Nat.le_sub_one_of_lt hb), List.filterMap_cons_some hfresh, List.length_cons]
      simp only [LotController.mk.injEq, true_and, List.append_assoc, List.singleton_append, and_true]
      omega

/-! ## The lot after a soft reset -/

theorem siteCount_eq_length {α : Type} (f : Site → Option α) : siteCount f = (Config.allSites.filterMap f).length :=
  List.length_filterMap_eq_countP.symm

theorem softlyReset_lot_eq (order : List Site) (s : State) :
    (softlyReset order s).lot = (resetClosure (resetStepOne s) order).lot := by simp [softlyReset]

theorem resetClosure_lot {s : State} (order : List Site) (hl : s.lot.state ≠ .noLot) {w : State}
    (hw : w = forSites (order ++ Config.allSites) takeInFlight s) :
    (resetClosure s order).lot =
      { (forSites Config.allSites giveUpFresh (setLot w (spoilList w.lot))).lot with state := .noLot } := by
  rw [resetClosure, if_neg hl, hw]
  simp

/-- What identifies a lot, which no claim, report or closure changes. -/
def lotIdentity (l : LotController) : Word × Nat × Nat × Profile := (l.number, l.first, l.last, l.profile)

/-- A move keeps the lot's identity and its closure list. -/
theorem LotMove.stands {l l' : LotController} (h : LotMove l l') :
    lotIdentity l' = lotIdentity l ∧ l'.closureList = l.closureList := by
  cases h <;> exact ⟨rfl, rfl⟩

theorem giveUpFresh_stands (s : State) (i : Site) : lotIdentity (giveUpFresh s i).lot = lotIdentity s.lot := by
  cases h : freshIndices s i with
  | none => rw [giveUpFresh_of_none h]
  | some n =>
    rw [giveUpFresh_of_some h, spoilFreshByReset]
    split
    · rfl
    · exact (spoilFresh_moves s.lot).stands.1

/-- A soft reset leaves the lot's identity, whatever was in flight. -/
theorem softlyReset_lot_stands (order : List Site) (s : State) :
    lotIdentity (softlyReset order s).lot = lotIdentity s.lot := by
  rw [softlyReset_lot_eq]
  by_cases hl : s.lot.state = .noLot
  · simp [resetClosure, hl]
  · obtain ⟨w, hw⟩ : ∃ w, w = forSites (order ++ Config.allSites) takeInFlight (resetStepOne s) := ⟨_, rfl⟩
    rw [resetClosure_lot order (by simpa using hl) hw]
    have hclosed (l : LotController) : lotIdentity { l with state := .noLot } = lotIdentity l := rfl
    have hlisted : lotIdentity (setLot w (spoilList w.lot)).lot = lotIdentity w.lot := rfl
    have hgiven (y : State) : lotIdentity (forSites Config.allSites giveUpFresh y).lot = lotIdentity y.lot :=
      forSites_keeps (fun s => lotIdentity s.lot) giveUpFresh_stands _ y
    have htaken (x : State) : lotIdentity (forSites (order ++ Config.allSites) takeInFlight x).lot = lotIdentity x.lot :=
      forSites_keeps (fun s => lotIdentity s.lot) (fun s i => (takeInFlight_moves s i).stands.1) _ x
    rw [hclosed, hgiven, hlisted, hw, htaken]
    simp

/-- R22: the lot that a soft reset leaves of an open lot. -/
theorem softlyReset_lot_of_open {order : List Site} {s : State} (hl : s.lot.state ≠ .noLot) (hs : holdingLaw s)
    {l : LotController} {fresh : List Nat} (h : l = lotAfterTaking s (takingOrder order))
    (hfresh : fresh = Config.allSites.filterMap (freshHeld s order)) :
    (softlyReset order s).lot =
      { s.lot with
        state := .noLot
        nextIndex := l.nextIndex
        committed := l.committed
        spoiled := l.spoiled + l.resumeList.length + fresh.length
        freshBound := 0
        resumeList := []
        closureList := s.lot.closureList ++ l.resumeList.map (·.index) ++ fresh } := by
  obtain ⟨hfits, hholding⟩ := holdingLaw_iff.mp hs
  obtain ⟨x, hx⟩ : ∃ x, x = resetStepOne s := ⟨_, rfl⟩
  have hxl : x.lot = s.lot := by simp [hx]
  have hxc : x.channels = s.channels := by simp [hx]
  obtain ⟨w, hw⟩ : ∃ w, w = forSites (order ++ Config.allSites) takeInFlight x := ⟨_, rfl⟩
  obtain ⟨hlot, hheld⟩ := forSites_takeInFlight_order order (fun i => claimSuits_of_fits (hfits i)) hxc hxl hl
  rw [← hw] at hlot hheld
  have hreset : HoldingInReset x := by
    have hch (i : Site) : channelOf x i = channelOf s i := by rw [channelOf, hxc]; rfl
    have hindices : freshIndices x = freshIndices s := funext fun i => congrArg freshIndex (hch i)
    exact ⟨fun i => by rw [hch]; exact claimSuits_of_fits (hfits i), by rw [hxl, hindices]; exact hholding⟩
  have htaken : HoldingInReset w := by
    rw [hw]
    exact forSites_inv HoldingInReset (fun x i hx => takeInFlight_holding hx i) _ _ hreset
  have hcount : w.lot.freshBound = fresh.length := by
    rw [htaken.2.count, siteCount_eq_length, hheld, hfresh]
  have hstands : lotIdentity w.lot = lotIdentity s.lot ∧ w.lot.closureList = s.lot.closureList := by
    rw [hw, ← hxl]
    exact Prod.mk.inj (forSites_keeps (fun s => (lotIdentity s.lot, s.lot.closureList))
      (fun s i => Prod.ext (takeInFlight_moves s i).stands.1 (takeInFlight_moves s i).stands.2) _ _)
  have hgiven := forSites_giveUpFresh allSites_nodup (y := setLot w (spoilList w.lot))
  have hindices : freshIndices (setLot w (spoilList w.lot)) = freshHeld s order := hheld
  rw [hindices, ← hfresh] at hgiven
  obtain ⟨hidentity, hclosure⟩ := hstands
  simp only [lotIdentity, Prod.mk.injEq] at hidentity
  obtain ⟨hnumber, hfirst, hlast, hprofile⟩ := hidentity
  rw [softlyReset_lot_eq, resetClosure_lot order (by simpa using hl) (hx ▸ hw), hgiven hcount.ge, h, ← hlot]
  simp [spoilList, hcount, hnumber, hfirst, hlast, hprofile, hclosure]

end Sys2Proof.Machine
end

section
/-!
Steps 1 to 4 of a soft reset (R182): what becomes of each block, and of every region of the exchange RAM (R157).
-/

namespace Sys2Proof.Machine

/-! ## The exchange RAM after each step -/

theorem ramOutside_of_subset {s t : State} {ranges wider : List (Nat × Nat)} (h : ramOutside s t ranges)
    (hsub : ranges ⊆ wider) : ramOutside s t wider := ramOutside_mono h fun _ ha r hr => ha r (hsub hr)

theorem answerWord_none (p : Half) : answerWord p .none = p.setWidth 32 := by simp [answerWord, AnswerCode.code]

/-- Step 1 writes the answer word with code 0 and the posted sequence (R173). -/
theorem resetStepOne_ram (s : State) : (resetStepOne s).ram = (writeRam s 0x7C ((postedSequence s).setWidth 32)).ram := by
  rw [← answerWord_none]
  simp [resetStepOne, discardRequest, atAnswer]

theorem resetStepOne_writes {s : State} (h : RamOk s) :
    readRam (resetStepOne s) 0x7C = (postedSequence s).setWidth 32 ∧ ramOutside s (resetStepOne s) [(0x7C, 4)] :=
  ⟨(congrArg (readWord · 0x7C) (resetStepOne_ram s)).trans (readRam_writeRam h (by decide) _),
    ramOutside_congr (ramOutside_writeRam h 0x7C _) rfl (resetStepOne_ram s)⟩

/-- Step 3 empties both frames and zeroes the mirror (R161, R180). -/
theorem resetStepThree_ram (s : State) :
    (resetStepThree s).ram = (zeroRam (writeRam (writeRam s 0x1000 0) 0x2000 0) 0x4000 0x800).ram := rfl

theorem resetStepThree_outside {s : State} (h : RamOk s) :
    ramOutside s (resetStepThree s) [(0x1000, 4), (0x2000, 4), (0x4000, 0x800)] := by
  refine ramOutside_congr ?_ rfl (resetStepThree_ram s)
  refine ramOutside_trans (ramOutside_of_subset (ramOutside_writeRam h 0x1000 0) (by simp)) ?_
  refine ramOutside_trans (ramOutside_of_subset (ramOutside_writeRam (writeRam_ok h 0x1000 0) 0x2000 0) (by simp)) ?_
  exact ramOutside_of_subset (ramOutside_zeroRam _ 0x4000 0x800) (by simp)

theorem resetStepThree_writes {s : State} (h : RamOk s) :
    readRam (resetStepThree s) 0x1000 = 0 ∧ readRam (resetStepThree s) 0x2000 = 0 ∧
      ∀ a, 0x4000 ≤ a → a < 0x4800 → readByte (resetStepThree s).ram a = 0 := by
  have h1 := writeRam_ok h 0x1000 0
  have word (a : Nat) : readRam (resetStepThree s) a =
      readRam (zeroRam (writeRam (writeRam s 0x1000 0) 0x2000 0) 0x4000 0x800) a := rfl
  refine ⟨?_, ?_, fun a hlo hhi => ?_⟩
  · rw [word, readRam_zeroRam_of_out (by decide), readRam_writeRam_of_out h1 (by decide), readRam_writeRam h (by decide)]
  · rw [word, readRam_zeroRam_of_out (by decide), readRam_writeRam h1 (by decide)]
  · rw [resetStepThree_ram]
    exact (readByte_zeroRange _ 0x4000 0x800 a).trans (if_pos ⟨hlo, hhi⟩)

/-- The closure of an open lot writes the summary with reason 2 (R21, R22). -/
theorem resetClosure_writes {s : State} (h : RamOk s) (order : List Site) (hl : s.lot.state ≠ .noLot) :
    summaryWritten (resetClosure s order) 2 ∧
      ramOutside s (resetClosure s order) [summaryBytes (resetClosure s order).lot.closureList.length] := by
  obtain ⟨x, hx⟩ : ∃ x, x = forSites (order ++ Config.allSites) takeInFlight s := ⟨_, rfl⟩
  have hxram : x.ram = s.ram := by
    rw [hx]
    exact forSites_keeps (fun s => s.ram) (fun s i => (takeInFlight_keeps s i).1) _ s
  obtain ⟨w, hw⟩ : ∃ w, w = forSites Config.allSites giveUpFresh (setLot x (spoilList x.lot)) := ⟨_, rfl⟩
  have hram : w.ram = s.ram := by
    rw [hw]
    exact (forSites_keeps (fun s => s.ram) (fun s i => (giveUpFresh_keeps s i).1) _ _).trans hxram
  have hclosed : resetClosure s order = setLot (writeSummary w .reset) { w.lot with state := .noLot } := by
    rw [resetClosure, if_neg hl]
    dsimp only
    rw [← hx, ← hw]
    simp only [writeSummary_lot]
  have hok : RamOk w := ramOk_of_eq h hram
  obtain ⟨l, hlot⟩ : ∃ l : LotController, l = { w.lot with state := .noLot } := ⟨_, rfl⟩
  obtain ⟨u, hu⟩ : ∃ u, u = setLot (writeSummary w .reset) l := ⟨_, rfl⟩
  have huram : u.ram = (writeSummary w .reset).ram := by rw [hu, setLot_ram]
  have hulot : u.lot = l := by rw [hu, setLot_lot]
  have hlist : u.lot.closureList = w.lot.closureList := by rw [hulot, hlot]
  rw [hclosed, ← hlot, ← hu]
  constructor
  · exact writeSummary_words hok .reset huram (by rw [hulot, hlot]) (by rw [hulot, hlot]) (by rw [hulot, hlot]) (by rw [hulot, hlot])
      (by rw [hulot, hlot]) hlist
  · rw [hlist]
    exact ramOutside_congr (writeSummary_outside hok .reset) hram.symm huram

/-- The summary stands when nothing of its bytes, and nothing of the lot, changes. -/
theorem summaryWritten_of_ramOutside {t u : State} {reason : Word} {ranges : List (Nat × Nat)} (h : summaryWritten t reason)
    (hl : u.lot = t.lot) (hout : ramOutside t u ranges) (hr : ∀ r ∈ ranges, r.1 + r.2 ≤ 0x200 ∨ 0x35C ≤ r.1) :
    summaryWritten u reason := by
  have word (a : Nat) (hlo : 0x200 ≤ a) (hhi : a + 4 ≤ 0x35C) : readRam u a = readRam t a :=
    readRam_of_ramOutside hout fun r hmem => by
      have := hr r hmem
      omega
  obtain ⟨hnumber, hfirst, hnext, hcommitted, hspoiled, hreason, hlength, hlist⟩ := h
  unfold summaryWritten
  rw [hl, word 0x200 (by omega) (by omega), word 0x204 (by omega) (by omega), word 0x208 (by omega) (by omega),
    word 0x20C (by omega) (by omega), word 0x210 (by omega) (by omega), word 0x214 (by omega) (by omega),
    word 0x218 (by omega) (by omega)]
  refine ⟨hnumber, hfirst, hnext, hcommitted, hspoiled, hreason, hlength, fun k hk hplace => ?_⟩
  rw [word _ (by omega) (by omega)]
  exact hlist k hk hplace

/-! ## The obligation -/

/-- What steps 1 to 4 leave of the blocks. -/
theorem softlyReset_blocks (order : List Site) (s : State) :
    softlyReset order s = { s with
      ram := (softlyReset order s).ram
      phase := .softReset
      requests := { lastAnswered := postedSequence s, busy := false, pendingNotify := false, inProgress := none }
      lot := (softlyReset order s).lot
      derivation := { s.derivation with waiting := [], inProgress := none }
      touchdown := { TouchdownController.afterPowerOn with contactLevel := s.touchdown.contactLevel }
      channels := Vector.replicate 16 SiteChannel.afterPowerOn
      ports := Vector.replicate 16 LinkPort.afterPowerOn
      rail := { s.rail with
        slotsInUse := 0
        waiting := Vector.replicate 16 none
        lastGranted := 15
        pulses := Vector.replicate 16 none }
      mirror := MirrorWriter.afterReset } := by
  apply State.eq_of_fields <;>
    simp [softlyReset, resetStepThree, resetStepOne, discardRequest, cutRail, resetTouchdown]

/-- What a soft reset writes after the closure of the lot: the identity block, the frame states and the mirror. -/
abbrev bytesAfterClosure : List (Nat × Nat) := [(0x00, 0x40), (0x1000, 4), (0x2000, 4), (0x4000, 0x800)]

/-- What becomes of the exchange RAM after the closure of the lot. -/
theorem softlyReset_writes {s u : State} (hu : RamOk u) {order : List Site} (h : u = resetClosure (resetStepOne s) order) :
    identityWritten s (softlyReset order s) ∧ readRam (softlyReset order s) 0x1000 = 0 ∧
      readRam (softlyReset order s) 0x2000 = 0 ∧
      (∀ a, 0x4000 ≤ a → a < 0x4800 → readByte (softlyReset order s).ram a = 0) ∧
      ramOutside u (softlyReset order s) bytesAfterClosure := by
  obtain ⟨v, hv⟩ : ∃ v, v = resetStepThree u := ⟨_, rfl⟩
  have hvok : RamOk v := hv ▸ resetStepThree_ok hu
  have hram : (softlyReset order s).ram = (writeIdentity v).ram := by rw [softlyReset_ram, hv, h]
  obtain ⟨hidentity, hout⟩ := writeIdentity_writes hvok
  have hout : ramOutside v (softlyReset order s) [(0x00, 0x40)] := ramOutside_congr hout rfl hram
  obtain ⟨hfirst, hsecond, hmirror⟩ := resetStepThree_writes hu
  have hstraps : s.straps = v.straps := by simp [hv, h]
  have hsecret : s.derivation.state = v.derivation.state ∧ s.derivation.checkValue = v.derivation.checkValue := by
    simp [hv, h, resetStepOne]
  refine ⟨identityWritten_congr hidentity hstraps hsecret.1 hsecret.2 hram, ?_, ?_, fun a hlo hhi => ?_, ?_⟩
  · rw [readRam_of_ramOutside hout (by simp), hv]
    exact hfirst
  · rw [readRam_of_ramOutside hout (by simp), hv]
    exact hsecond
  · rw [hout a (by simp; omega), hv]
    exact hmirror a hlo hhi
  · refine ramOutside_trans (t := v) ?_ (ramOutside_of_subset hout (by simp))
    rw [hv]
    exact ramOutside_of_subset (resetStepThree_outside hu) (by simp)

/-- Settles O15: the blocks at once; the exchange RAM and the lot by the closure of the lot and the writes before and after it. -/
theorem softResetClearsThePart : Obligations.SoftResetClearsThePart := by
  intro order s hphase hram
  obtain ⟨hanswer, hone⟩ := resetStepOne_writes hram
  have hok := resetStepOne_ok hram
  obtain ⟨u, hu⟩ : ∃ u, u = resetClosure (resetStepOne s) order := ⟨_, rfl⟩
  obtain ⟨hidentity, hfirst, hsecond, hmirror, hafter⟩ := softlyReset_writes (hu ▸ resetClosure_ok hok order) hu
  have hlot : (resetStepOne s).lot = s.lot := by simp
  refine ⟨softlyReset order s, congrArg Host.Outcome.next (if_pos hphase), softlyReset_blocks order s, ?_, hidentity, hfirst,
    hsecond, hmirror, fun hno => ?_, fun hopen => ?_⟩
  · rw [readRam_of_ramOutside hafter (by simp), ← hanswer]
    by_cases hno : s.lot.state = .noLot
    · rw [hu, resetClosure, if_pos (by rw [hlot]; exact hno)]
    · rw [hu]
      refine readRam_of_ramOutside (resetClosure_writes hok order (by rw [hlot]; exact hno)).2 fun r hr => ?_
      rw [List.mem_singleton.mp hr]
      exact .inl (by simp [summaryBytes])
  · have hsame : u = resetStepOne s := by rw [hu, resetClosure, if_pos (by rw [hlot]; exact hno)]
    refine ⟨by rw [softlyReset_lot_eq, ← hu, hsame, hlot], ?_⟩
    rw [hsame] at hafter
    exact ramOutside_trans (ramOutside_of_subset hone (by simp)) (ramOutside_of_subset hafter (by simp))
  · obtain ⟨hsummary, hclosure⟩ := resetClosure_writes hok order (by rw [hlot]; exact hopen)
    rw [← hu] at hsummary hclosure
    have hulot : (softlyReset order s).lot = u.lot := by rw [softlyReset_lot_eq, hu]
    rw [← hulot] at hclosure
    have hidentity := softlyReset_lot_stands order s
    simp only [lotIdentity, Prod.mk.injEq] at hidentity
    obtain ⟨hnumber, hlow, hhigh, hprofile⟩ := hidentity
    obtain ⟨hstate, hlist⟩ := softlyReset_lot order s
    refine ⟨hstate, ?_, hnumber, hlow, hhigh, hprofile, summaryWritten_of_ramOutside hsummary hulot hafter (by simp), ?_,
      fun hs l fresh hl hfresh => softlyReset_lot_of_open hopen hs hl hfresh⟩
    · exact hlist.resolve_right fun h => hopen (h ▸ hstate)
    · exact ramOutside_trans (ramOutside_of_subset hone (by simp))
        (ramOutside_trans (ramOutside_of_subset hclosure (by simp)) (ramOutside_of_subset hafter (by simp)))

end Sys2Proof.Machine
end
